-- ==== Sys2Proof/Word.lean ====
section
/-!
DEFINITION. Sys2Proof/Word.lean: the widths of this hardware (00_scope.md R7: every value is unsigned, bit 0 is the
least significant) and the two kinds of encoded word of spec/opcode_table.json.
-/
namespace Sys2Proof

/-- A byte: every unit of `TX`, every operand byte, `SEQ` (00_scope.md R7). -/
abbrev Byte := BitVec 8

/-- A 16-bit value: `CRC`, `REM`, the LENGTH field (00_scope.md R7). -/
abbrev Word16 := BitVec 16

/-- The operation word of 30_encoding.md R43, bit 39 most significant. -/
abbrev OpWord := BitVec 40

/-- The first eight bytes of a frame as one big-endian number, byte 0 in bits 63:56 (30_encoding.md R50). -/
abbrev FrameHead := BitVec 64

/-- A row of spec/opcode_table.json is encoded in one of two formats (30_encoding.md R50). -/
inductive Encoded where
  /-- format `op`: a 40-bit operation word (30_encoding.md R43) -/
  | op (w : OpWord)
  /-- format `frame`: the first eight bytes of a frame (30_encoding.md R50) -/
  | frame (h : FrameHead)
  deriving DecidableEq, Repr

end Sys2Proof
end

