-- ==== Sys2Proof/Syntax.lean ====
section
/-!
DEFINITION. Sys2Proof/Syntax.lean: one constructor per row of spec/opcode_table.json, in the table's order: the six
operations (30_encoding.md R44), then the frame format as a whole and the twelve listed COMMAND values (30_encoding.md
R50, 42_command_ids.md). A frame row's arguments are the fields the table gives it: SEQ, ADDRESS, (COMMAND,) LENGTH.
-/
namespace Sys2Proof

/-- The rows of spec/opcode_table.json. -/
inductive Instr where
  /-- `CRC.INIT` (40_crc.md R65) -/
  | crcInit
  /-- `CRC.UPD b` (40_crc.md R66) -/
  | crcUpd (b : Byte)
  /-- `CRC.RD` (40_crc.md R67) -/
  | crcRd
  /-- `FRM.START addr, cmd, len` (41_frame.md R75) -/
  | frmStart (addr cmd : Byte) (len : Word16)
  /-- `FRM.DATA b` (41_frame.md R77) -/
  | frmData (b : Byte)
  /-- `STAT.RD` (41_frame.md R78) -/
  | statRd
  /-- `FRAME`: the head of a frame with a COMMAND value that has no row of its own (30_encoding.md R50,
  42_command_ids.md R108) -/
  | frame (seq addr cmd : Byte) (len : Word16)
  /-- COMMAND 0x01 (42_command_ids.md R96) -/
  | frameQueryVersion (seq addr : Byte) (len : Word16)
  /-- COMMAND 0x10 (42_command_ids.md R97) -/
  | frameSetTime (seq addr : Byte) (len : Word16)
  /-- COMMAND 0x21 (42_command_ids.md R98) -/
  | frameCancelTempDisplay (seq addr : Byte) (len : Word16)
  /-- COMMAND 0x22 (42_command_ids.md R99) -/
  | framePlayVoice (seq addr : Byte) (len : Word16)
  /-- COMMAND 0x25 (42_command_ids.md R100) -/
  | frameLoadAd (seq addr : Byte) (len : Word16)
  /-- COMMAND 0x35 (42_command_ids.md R101) -/
  | frameLoadAdColor (seq addr : Byte) (len : Word16)
  /-- COMMAND 0x27 (42_command_ids.md R102) -/
  | frameLoadTempDisplay (seq addr : Byte) (len : Word16)
  /-- COMMAND 0x37 (42_command_ids.md R103) -/
  | frameLoadTempDisplayColorAlt (seq addr : Byte) (len : Word16)
  /-- COMMAND 0x28 (42_command_ids.md R104) -/
  | frameLoadQrcode (seq addr : Byte) (len : Word16)
  /-- COMMAND 0x29 (42_command_ids.md R105) -/
  | frameSmallScreenAllLines (seq addr : Byte) (len : Word16)
  /-- COMMAND 0x32 (42_command_ids.md R106) -/
  | frameCacheVoice (seq addr : Byte) (len : Word16)
  /-- COMMAND 0xF0 (42_command_ids.md R107) -/
  | frameSetVolume (seq addr : Byte) (len : Word16)
  deriving DecidableEq, Repr

end Sys2Proof
end

