-- ==== Sys2Proof/WellFormed.lean ====
section
/-!
DEFINITION. Sys2Proof/WellFormed.lean: what the types of Syntax.lean do not say. Every operand of every row ranges over
all values of its field (30_encoding.md R45, R47), so there is ONE check: the generic `FRAME` row stands for the COMMAND
values that have no row of their own (DEDUCED, log entry 7).
-/
namespace Sys2Proof

/-- The COMMAND values that have a row of their own (42_command_ids.md R96 to R107). -/
def listedCommands : List Byte :=
  [0x01, 0x10, 0x21, 0x22, 0x25, 0x35, 0x27, 0x37, 0x28, 0x29, 0x32, 0xF0]

/-- A generic frame row carries an unlisted COMMAND value; nothing else restricts an instruction. -/
def Instr.wf : Instr → Bool
  | .crcInit | .crcUpd _ | .crcRd | .frmStart _ _ _ | .frmData _ | .statRd => true
  | .frame _ _ cmd _ => !listedCommands.contains cmd
  | .frameQueryVersion _ _ _ | .frameSetTime _ _ _ | .frameCancelTempDisplay _ _ _ | .framePlayVoice _ _ _ => true
  | .frameLoadAd _ _ _ | .frameLoadAdColor _ _ _ | .frameLoadTempDisplay _ _ _ => true
  | .frameLoadTempDisplayColorAlt _ _ _ | .frameLoadQrcode _ _ _ | .frameSmallScreenAllLines _ _ _ => true
  | .frameCacheVoice _ _ _ | .frameSetVolume _ _ _ => true

end Sys2Proof
end

