-- ==== Sys2Proof/Decode.lean ====
section
/-!
DEFINITION. Sys2Proof/Decode.lean: decoding, total and rejecting by name (30_encoding.md R43, R44, R46, R50), then the
encoder, then the match and mask table of 30_encoding.md R44 and R50 as data.
-/
namespace Sys2Proof

/-- Why a word is no row of spec/opcode_table.json (30_encoding.md R46, R50). -/
inductive DecodeError where
  /-- `OP` is none of the six operation codes -/
  | reservedOp (op : Byte)
  /-- a must-be-0 field of this `OP` is not 0 -/
  | mustBeZero (op : Byte)
  /-- a frame head whose first two bytes are not 0xAA, 0x55 -/
  | notHeader
  /-- a frame head whose RESERVED byte is not 0x00 -/
  | reservedByteSet
  /-- fewer than the eight bytes a frame head takes -/
  | shortHead
  deriving DecidableEq, Repr

/-- What decoding answers. -/
inductive Decoded where
  | instr (i : Instr)
  | illegal (why : DecodeError)
  deriving DecidableEq, Repr

/-! ## The fields (30_encoding.md R43, R50) -/

/-- bits 39:32 -/
def opField (w : OpWord) : Byte := w.extractLsb' 32 8
/-- bits 31:24 -/
def aField (w : OpWord) : Byte := w.extractLsb' 24 8
/-- bits 23:16 -/
def bField (w : OpWord) : Byte := w.extractLsb' 16 8
/-- bits 15:0 -/
def cField (w : OpWord) : Word16 := w.extractLsb' 0 16
/-- the data byte `C[7:0]` -/
def dataField (w : OpWord) : Byte := w.extractLsb' 0 8
/-- `C[15:8]`, which must be 0 where the operand is a data byte -/
def dataHighField (w : OpWord) : Byte := w.extractLsb' 8 8

/-- bits 63:48 -/
def headerField (h : FrameHead) : Word16 := h.extractLsb' 48 16
/-- bits 47:40 -/
def seqField (h : FrameHead) : Byte := h.extractLsb' 40 8
/-- bits 39:32 -/
def addressField (h : FrameHead) : Byte := h.extractLsb' 32 8
/-- bits 31:24 -/
def reservedField (h : FrameHead) : Byte := h.extractLsb' 24 8
/-- bits 23:16 -/
def commandField (h : FrameHead) : Byte := h.extractLsb' 16 8
/-- bits 15:0 -/
def lengthField (h : FrameHead) : Word16 := h.extractLsb' 0 16

/-! ## Decoding -/

/-- The operation codes of 30_encoding.md R44. -/
def opCrcInit : Byte := 0x01
def opCrcUpd : Byte := 0x02
def opCrcRd : Byte := 0x03
def opFrmStart : Byte := 0x10
def opFrmData : Byte := 0x11
def opStatRd : Byte := 0x20

/-- The operation without operands `i`, when every field but `OP` is 0 (30_encoding.md R43). -/
def decodeNoOperand (w : OpWord) (i : Instr) : Decoded :=
  if aField w = 0 ∧ bField w = 0 ∧ cField w = 0 then .instr i else .illegal (.mustBeZero (opField w))

/-- The operation with a data byte, when `A`, `B` and `C[15:8]` are 0 (30_encoding.md R43). -/
def decodeDataByte (w : OpWord) (f : Byte → Instr) : Decoded :=
  if aField w = 0 ∧ bField w = 0 ∧ dataHighField w = 0 then .instr (f (dataField w))
  else .illegal (.mustBeZero (opField w))

/-- An operation word (30_encoding.md R44, R46). -/
def decodeOp (w : OpWord) : Decoded :=
  if opField w = opCrcInit then decodeNoOperand w .crcInit
  else if opField w = opCrcUpd then decodeDataByte w .crcUpd
  else if opField w = opCrcRd then decodeNoOperand w .crcRd
  else if opField w = opFrmStart then .instr (.frmStart (aField w) (bField w) (cField w))
  else if opField w = opFrmData then decodeDataByte w .frmData
  else if opField w = opStatRd then decodeNoOperand w .statRd
  else .illegal (.reservedOp (opField w))

/-- The row of a frame head: the row of its COMMAND value if it has one, else the generic row (42_command_ids.md R96 to
R108; DEDUCED, log entry 7: the more specific row is taken). -/
def frameRow (seq addr cmd : Byte) (len : Word16) : Instr :=
  if cmd = 0x01 then .frameQueryVersion seq addr len
  else if cmd = 0x10 then .frameSetTime seq addr len
  else if cmd = 0x21 then .frameCancelTempDisplay seq addr len
  else if cmd = 0x22 then .framePlayVoice seq addr len
  else if cmd = 0x25 then .frameLoadAd seq addr len
  else if cmd = 0x35 then .frameLoadAdColor seq addr len
  else if cmd = 0x27 then .frameLoadTempDisplay seq addr len
  else if cmd = 0x37 then .frameLoadTempDisplayColorAlt seq addr len
  else if cmd = 0x28 then .frameLoadQrcode seq addr len
  else if cmd = 0x29 then .frameSmallScreenAllLines seq addr len
  else if cmd = 0x32 then .frameCacheVoice seq addr len
  else if cmd = 0xF0 then .frameSetVolume seq addr len
  else .frame seq addr cmd len

/-- A frame head (30_encoding.md R50). -/
def decodeFrameHead (h : FrameHead) : Decoded :=
  if headerField h ≠ 0xAA55 then .illegal .notHeader
  else if reservedField h ≠ 0 then .illegal .reservedByteSet
  else .instr (frameRow (seqField h) (addressField h) (commandField h) (lengthField h))

/-- Every word of either format. -/
def decode : Encoded → Decoded
  | .op w => decodeOp w
  | .frame h => decodeFrameHead h

/-- Eight bytes as a 64-bit big-endian number (30_encoding.md R50). -/
def headOfBytes (b0 b1 b2 b3 b4 b5 b6 b7 : Byte) : FrameHead :=
  b0 ++ b1 ++ b2 ++ b3 ++ b4 ++ b5 ++ b6 ++ b7

/-- The frame decoder of 30_encoding.md R50 on a byte stream: the row of the frame that starts at its first byte. -/
def decodeFrameBytes : List Byte → Decoded
  | b0 :: b1 :: b2 :: b3 :: b4 :: b5 :: b6 :: b7 :: _ => decodeFrameHead (headOfBytes b0 b1 b2 b3 b4 b5 b6 b7)
  | _ => .illegal .shortHead

/-! ## The table's numbering -/

/-- The word whose bits are `w`, numbered as spec/opcode_table.json numbers its match and mask: one number of the row's
`width` (40 for format `op`, 64 for format `frame`), bit 0 its least significant bit (30_encoding.md R50). A row of at
most 40 bits is an operation word, a wider one a frame head; the bits above `nbits` are 0. -/
def tableWord (nbits w : Nat) : Encoded :=
  if nbits ≤ 40 then .op (BitVec.ofNat 40 (w % 2 ^ nbits)) else .frame (BitVec.ofNat 64 (w % 2 ^ nbits))

/-- The instruction the decoder reads from a table word. -/
def decodeTableWord (nbits w : Nat) : Option Instr :=
  match decode (tableWord nbits w) with
  | .instr i => some i
  | .illegal _ => none

/-! ## Encoding -/

/-- The operation word with these four fields (30_encoding.md R43). -/
def opWord (op a b : Byte) (c : Word16) : OpWord := op ++ a ++ b ++ c

/-- A data byte as the `C` field: `C[15:8]` is 0 (30_encoding.md R43). -/
def dataC (b : Byte) : Word16 := (0 : Byte) ++ b

/-- The 64-bit word with these six fields (30_encoding.md R50). -/
def headWord (header : Word16) (seq addr reserved cmd : Byte) (len : Word16) : FrameHead :=
  header ++ seq ++ addr ++ reserved ++ cmd ++ len

/-- The frame head with these fields (30_encoding.md R41, R50). -/
def frameHead (seq addr cmd : Byte) (len : Word16) : FrameHead := headWord 0xAA55 seq addr 0x00 cmd len

/-- The word of an instruction (30_encoding.md R44, R50). -/
def encode : Instr → Encoded
  | .crcInit => .op (opWord opCrcInit 0 0 0)
  | .crcUpd b => .op (opWord opCrcUpd 0 0 (dataC b))
  | .crcRd => .op (opWord opCrcRd 0 0 0)
  | .frmStart addr cmd len => .op (opWord opFrmStart addr cmd len)
  | .frmData b => .op (opWord opFrmData 0 0 (dataC b))
  | .statRd => .op (opWord opStatRd 0 0 0)
  | .frame seq addr cmd len => .frame (frameHead seq addr cmd len)
  | .frameQueryVersion seq addr len => .frame (frameHead seq addr 0x01 len)
  | .frameSetTime seq addr len => .frame (frameHead seq addr 0x10 len)
  | .frameCancelTempDisplay seq addr len => .frame (frameHead seq addr 0x21 len)
  | .framePlayVoice seq addr len => .frame (frameHead seq addr 0x22 len)
  | .frameLoadAd seq addr len => .frame (frameHead seq addr 0x25 len)
  | .frameLoadAdColor seq addr len => .frame (frameHead seq addr 0x35 len)
  | .frameLoadTempDisplay seq addr len => .frame (frameHead seq addr 0x27 len)
  | .frameLoadTempDisplayColorAlt seq addr len => .frame (frameHead seq addr 0x37 len)
  | .frameLoadQrcode seq addr len => .frame (frameHead seq addr 0x28 len)
  | .frameSmallScreenAllLines seq addr len => .frame (frameHead seq addr 0x29 len)
  | .frameCacheVoice seq addr len => .frame (frameHead seq addr 0x32 len)
  | .frameSetVolume seq addr len => .frame (frameHead seq addr 0xF0 len)

/-! ## The table of match and mask -/

/-- One row's match and mask (30_encoding.md R44: a word `W` is the operation when `W AND mask = match`). -/
structure MatchMask (n : Nat) where
  pattern : BitVec n
  mask : BitVec n
  deriving DecidableEq, Repr

/-- `W AND mask = match`. -/
def MatchMask.covers {n : Nat} (r : MatchMask n) (w : BitVec n) : Bool := w &&& r.mask == r.pattern

/-- The six rows of 30_encoding.md R44, in its order. -/
def opRows : List (MatchMask 40) :=
  [⟨0x0100000000, 0xFFFFFFFFFF⟩, ⟨0x0200000000, 0xFFFFFFFF00⟩, ⟨0x0300000000, 0xFFFFFFFFFF⟩,
   ⟨0x1000000000, 0xFF00000000⟩, ⟨0x1100000000, 0xFFFFFFFF00⟩, ⟨0x2000000000, 0xFFFFFFFFFF⟩]

/-- The generic frame row of 30_encoding.md R50. -/
def genericFrameRow : MatchMask 64 := ⟨0xAA55000000000000, 0xFFFF0000FF000000⟩

/-- The row of a COMMAND value (30_encoding.md R50). -/
def commandRow (cmd : Byte) : MatchMask 64 :=
  ⟨0xAA55000000000000 ||| (cmd.zeroExtend 64 <<< 16), 0xFFFF0000FFFF0000⟩

/-- The row of spec/opcode_table.json that a constructor stands for, in one of the two formats. -/
inductive TableRow where
  | op (r : MatchMask 40)
  | frame (r : MatchMask 64)
  deriving DecidableEq, Repr

/-- The word is of the row's format and `W AND mask = match`. -/
def TableRow.covers : TableRow → Encoded → Bool
  | .op r, .op w => r.covers w
  | .frame r, .frame h => r.covers h
  | .op _, .frame _ => false
  | .frame _, .op _ => false

/-- The row of each constructor (30_encoding.md R44, R50). -/
def tableRow : Instr → TableRow
  | .crcInit => .op ⟨0x0100000000, 0xFFFFFFFFFF⟩
  | .crcUpd _ => .op ⟨0x0200000000, 0xFFFFFFFF00⟩
  | .crcRd => .op ⟨0x0300000000, 0xFFFFFFFFFF⟩
  | .frmStart _ _ _ => .op ⟨0x1000000000, 0xFF00000000⟩
  | .frmData _ => .op ⟨0x1100000000, 0xFFFFFFFF00⟩
  | .statRd => .op ⟨0x2000000000, 0xFFFFFFFFFF⟩
  | .frame _ _ _ _ => .frame genericFrameRow
  | .frameQueryVersion _ _ _ => .frame (commandRow 0x01)
  | .frameSetTime _ _ _ => .frame (commandRow 0x10)
  | .frameCancelTempDisplay _ _ _ => .frame (commandRow 0x21)
  | .framePlayVoice _ _ _ => .frame (commandRow 0x22)
  | .frameLoadAd _ _ _ => .frame (commandRow 0x25)
  | .frameLoadAdColor _ _ _ => .frame (commandRow 0x35)
  | .frameLoadTempDisplay _ _ _ => .frame (commandRow 0x27)
  | .frameLoadTempDisplayColorAlt _ _ _ => .frame (commandRow 0x37)
  | .frameLoadQrcode _ _ _ => .frame (commandRow 0x28)
  | .frameSmallScreenAllLines _ _ _ => .frame (commandRow 0x29)
  | .frameCacheVoice _ _ _ => .frame (commandRow 0x32)
  | .frameSetVolume _ _ _ => .frame (commandRow 0xF0)

end Sys2Proof
end

