-- ==== Sys2Proof/Config.lean ====
section
/-!
DEFINITION. Sys2Proof/Config.lean: the constants the source fixes (00_scope.md R5) and the three parameters a block is
built with (00_scope.md R6). No value of this hardware is left free: 93_implementation_defined.md, section 1, calls the
block total and deterministic once its three parameters are chosen.
-/
namespace Sys2Proof

/-- Byte order of the CRC field in a frame (00_scope.md R6, 90_conflicts.md C4). -/
inductive CrcOrder where
  /-- low byte first, the default -/
  | le
  /-- high byte first -/
  | be
  deriving DecidableEq, Repr

/-- The three parameters, fixed when a block is built (00_scope.md R6, 10_state.md R14). -/
structure Params where
  /-- `SEQ_INIT`, any 8-bit value -/
  seqInit : Byte
  /-- `MAX_PAYLOAD`, 0 to 65535 -/
  maxPayload : Word16
  /-- `CRC_ORDER` -/
  crcOrder : CrcOrder
  deriving DecidableEq, Repr

/-- The parameters of the block that `State.reset` is: the defaults of 00_scope.md R6 for `MAX_PAYLOAD` and
`CRC_ORDER`. DESIGN CHOICE (log entry 2): the spec gives `SEQ_INIT` no default, 0x6C is taken. Unsafe. -/
def Config.params : Params := { seqInit := 0x6C, maxPayload := 255, crcOrder := .le }

/-- `HEADER`, first byte first (00_scope.md R5). -/
def Config.header : List Byte := [0xAA, 0x55]

/-- `RESERVED` (00_scope.md R5, 30_encoding.md R47). -/
def Config.reserved : Byte := 0x00

/-- `TERMINATOR` (00_scope.md R5). -/
def Config.terminator : Byte := 0xAF

/-- `CRC_POLY`, the reflected form (00_scope.md R5). -/
def Config.crcPoly : Word16 := 0xA001

/-- `CRC_INIT` (00_scope.md R5). -/
def Config.crcInit : Word16 := 0xFFFF

/-- `DEFAULT_ADDR`, applied by whoever writes the operation word (00_scope.md R5, 30_encoding.md R48). -/
def Config.defaultAddr : Byte := 0x64

end Sys2Proof
end

