-- ==== Sys2Proof/Machine/Operands.lean ====
section
/-!
DEFINITION. Sys2Proof/Machine/Operands.lean: how multi-byte fields are split and ordered (00_scope.md R7, 20_memory.md
R27, 30_encoding.md R45), and the fixed parts of a frame built from an operation's operands (30_encoding.md R40).
-/
namespace Sys2Proof.Machine

/-- `hi8(w)`, bits 15:8 (00_scope.md R7). -/
def hi8 (w : Word16) : Byte := w.extractLsb' 8 8

/-- `lo8(w)`, bits 7:0 (00_scope.md R7). -/
def lo8 (w : Word16) : Byte := w.extractLsb' 0 8

/-- The six counted bytes SEQ to LENGTH of a frame, in order (30_encoding.md R40, 41_frame.md R75). -/
def countedBytes (seq addr cmd : Byte) (len : Word16) : List Byte :=
  [seq, addr, Config.reserved, cmd, hi8 len, lo8 len]

/-- The two bytes of the CRC field in the block's order, `crcbytes` of 30_encoding.md R40. -/
def crcBytes (o : CrcOrder) (c : Word16) : List Byte :=
  match o with
  | .le => [lo8 c, hi8 c]
  | .be => [hi8 c, lo8 c]

end Sys2Proof.Machine
end

