-- ==== Sys2Proof/Machine/State.lean ====
section
/-!
DEFINITION. Sys2Proof/Machine/State.lean: the state of one block as plain data (10_state.md R14), with the parameters it
is built with (00_scope.md R6), the observable record of its run (70_reset_and_hazards.md R139) and the host's inputs it
has not yet taken.
-/
namespace Sys2Proof.Machine

/-- `PHASE` (10_state.md R12): `idle` is 0 and `payload` is 1. -/
inductive Phase where
  | idle
  | payload
  deriving DecidableEq, Repr

/-- The four errors (60_exceptions.md R113). -/
inductive ErrorCode where
  /-- code 1, R110 -/
  | payloadTooLarge
  /-- code 2, R111 -/
  | busy
  /-- code 3, R112 -/
  | notInFrame
  /-- code 4, R114 -/
  | illegalOp
  deriving DecidableEq, Repr

/-- The block's one response to every word (30_encoding.md R43). -/
inductive Response where
  | ok
  /-- a value of at most 32 bits, held in 32 (log entry 8) -/
  | okValue (v : BitVec 32)
  | err (e : ErrorCode)
  deriving DecidableEq, Repr

/-- What the outside can do to the block: present a word, or reset it (20_memory.md R32, 70_reset_and_hazards.md R130,
R139). -/
inductive HostInput where
  | word (e : Encoded)
  | reset
  deriving DecidableEq, Repr

/-- One block. -/
structure State where
  /-- `CRC` (10_state.md R10) -/
  crc : Word16
  /-- `SEQ` (10_state.md R11) -/
  seq : Byte
  /-- `PHASE` (10_state.md R12) -/
  phase : Phase
  /-- `REM` (10_state.md R13) -/
  rem : Word16
  /-- `TX`, first byte emitted first (20_memory.md R25; log entry 3) -/
  tx : List Byte
  /-- the responses given so far, oldest first (70_reset_and_hazards.md R139; log entry 3) -/
  responses : List Response
  /-- the host's inputs not yet taken, next one first (log entry 4) -/
  pending : List HostInput
  /-- what the block was built with (00_scope.md R6; log entry 1) -/
  params : Params
  deriving DecidableEq, Repr

/-- The machine stops with a fault: never. No constructor, because 93_implementation_defined.md section 1 says that no
behaviour of this block is treated as stuck or as a fault: it is total. Nothing raises it; safe. -/
inductive Fault where
  deriving DecidableEq, Repr

/-- The model gives no meaning. -/
inductive Refusal where
  /-- Reserved for an arm of `exec` whose instruction has no meaning yet; no arm of this model raises it. Safe. -/
  | notModelled (mnemonic : String)
  deriving DecidableEq, Repr

/-- A block just built with the parameters `p`: the reset state of 10_state.md R21 with `TX` empty
(70_reset_and_hazards.md R130), no response given yet, no input waiting. -/
def State.built (p : Params) : State where
  crc := Config.crcInit
  seq := p.seqInit
  phase := .idle
  rem := 0
  tx := []
  responses := []
  pending := []
  params := p

/-- The machine right after reset: the block built with the parameters of Config.lean (log entry 2). -/
def State.reset : State := State.built Config.params

end Sys2Proof.Machine
end

