-- ==== Sys2Proof/Machine/Flags.lean ====
section
/-!
DEFINITION. Sys2Proof/Machine/Flags.lean: the one status bit (10_state.md R17), which is computed and not stored, the
word STAT.RD returns (41_frame.md R78), and the numbers of the errors (60_exceptions.md R113). The block has no
condition codes and no arithmetic flags.
-/
namespace Sys2Proof.Machine

/-- `PHASE` as a binary value (10_state.md R12). -/
def Phase.bit : Phase → BitVec 1
  | .idle => 0
  | .payload => 1

/-- `BUSY` (10_state.md R17). -/
def State.busy (s : State) : BitVec 1 := s.phase.bit

/-- `{ 0b0000000, BUSY, SEQ, REM }` (41_frame.md R78). -/
def State.statusWord (s : State) : BitVec 32 := (0 : BitVec 7) ++ s.busy ++ s.seq ++ s.rem

/-- The 3-bit code of an error (60_exceptions.md R113). -/
def ErrorCode.code : ErrorCode → BitVec 3
  | .payloadTooLarge => 1
  | .busy => 2
  | .notInFrame => 3
  | .illegalOp => 4

end Sys2Proof.Machine
end

