-- ==== Sys2Proof/Machine/Ops.lean ====
section
/-!
DEFINITION. Sys2Proof/Machine/Ops.lean: the pseudocode primitives of 00_scope.md R9 as updates of the state, taking an
error as one shared operation (60_exceptions.md R118), the shared steps of the frame assembler (41_frame.md R75 to R77),
the reset event (70_reset_and_hazards.md R130) and taking the host's next input (20_memory.md R32).
-/
namespace Sys2Proof.Machine

/-! ## The primitives of 00_scope.md R9 -/

/-- `CRC <- v` -/
def State.setCrc (v : Word16) (s : State) : State := { s with crc := v }
/-- `SEQ <- v` -/
def State.setSeq (v : Byte) (s : State) : State := { s with seq := v }
/-- `PHASE <- v` -/
def State.setPhase (v : Phase) (s : State) : State := { s with phase := v }
/-- `REM <- v` -/
def State.setRem (v : Word16) (s : State) : State := { s with rem := v }
/-- `emit(b)` for each byte in order (20_memory.md R25, R37: it never fails) -/
def State.emit (bs : List Byte) (s : State) : State := { s with tx := s.tx ++ bs }
/-- `respond r` -/
def State.respond (r : Response) (s : State) : State := { s with responses := s.responses ++ [r] }

/-- `raise e`: the ONE way an operation is refused. It answers `err(e)`, writes no state element and emits nothing
(60_exceptions.md R118). Nothing is saved, no mode changes and there is no handler, so there is no return beside it
(60_exceptions.md R119). -/
def State.raise (e : ErrorCode) (s : State) : State := s.respond (.err e)

/-- `emit(v); CRC <- crc_step(CRC, v)` for each byte in order (41_frame.md R75, R77). -/
def State.emitSummed : List Byte → State → State
  | [], s => s
  | v :: vs, s => State.emitSummed vs ((s.emit [v]).setCrc (crcStep s.crc v))

/-! ## The frame assembler -/

/-- `complete_frame()` (41_frame.md R76). -/
def completeFrame (s : State) : State :=
  ((((s.emit (crcBytes s.params.crcOrder s.crc)).emit [Config.terminator]).setSeq (s.seq + 1)).setPhase .idle).setRem 0

/-- The accepted branch of FRM.START up to `REM <- len` (41_frame.md R75). -/
def openFrame (addr cmd : Byte) (len : Word16) (s : State) : State :=
  (((s.setCrc Config.crcInit).emit Config.header).emitSummed (countedBytes s.seq addr cmd len)).setRem len

/-- FRM.START addr, cmd, len, with its errors in the order of checking (41_frame.md R75, 60_exceptions.md R117). -/
def startFrame (addr cmd : Byte) (len : Word16) (s : State) : State :=
  if s.phase = .payload then s.raise .busy
  else if s.params.maxPayload < len then s.raise .payloadTooLarge
  else if len = 0 then (completeFrame (openFrame addr cmd len s)).respond .ok
  else ((openFrame addr cmd len s).setPhase .payload).respond .ok

/-- The accepted branch of FRM.DATA up to `REM <- REM - 1` (41_frame.md R77; in a state no run reaches, `REM` = 0 while
busy, the subtraction wraps: log entry 9). -/
def takeByte (b : Byte) (s : State) : State := (s.emitSummed [b]).setRem (s.rem - 1)

/-- FRM.DATA b (41_frame.md R77): the test of `REM` sees the new value. -/
def supplyByte (b : Byte) (s : State) : State :=
  if s.phase = .idle then s.raise .notInFrame
  else if (takeByte b s).rem = 0 then (completeFrame (takeByte b s)).respond .ok
  else (takeByte b s).respond .ok

/-! ## Reset and the operation port -/

/-- The reset event (70_reset_and_hazards.md R130): the four registers; `TX` is kept, nothing is emitted, and no response
is given because reset is not an operation. -/
def resetEvent (s : State) : State :=
  (((s.setCrc Config.crcInit).setSeq s.params.seqInit).setPhase .idle).setRem 0

/-- The host's next input and the block with that input taken (20_memory.md R32: in the order issued). -/
def takeInput (s : State) : Option (HostInput × State) :=
  match s.pending with
  | [] => none
  | x :: rest => some (x, { s with pending := rest })

/-- The host puts one input in front of all others (used by `State.withFetchWord` only). -/
def State.presentFirst (x : HostInput) (s : State) : State := { s with pending := x :: s.pending }

/-- The last response given. -/
def State.lastResponse (s : State) : Option Response := s.responses.getLast?

end Sys2Proof.Machine
end

