-- ==== Sys2Proof/Machine/Assembler.lean ====
section
/-!
DEFINITION. Sys2Proof/Machine/Assembler.lean: the second family, the frame assembler's operations (41_frame.md R75, R77,
R78).
-/
namespace Sys2Proof.Machine

/-- `FRM.START addr, cmd, len` (41_frame.md R75). -/
def execFrmStart (addr cmd : Byte) (len : Word16) (s : State) : Host.Outcome State Fault Refusal :=
  .next (startFrame addr cmd len s)

/-- `FRM.DATA b` (41_frame.md R77). -/
def execFrmData (b : Byte) (s : State) : Host.Outcome State Fault Refusal :=
  .next (supplyByte b s)

/-- `STAT.RD` (41_frame.md R78): allowed in both phases. -/
def execStatRd (s : State) : Host.Outcome State Fault Refusal :=
  .next (s.respond (.okValue s.statusWord))

end Sys2Proof.Machine
end

