-- ==== Sys2Proof/Machine/CommandIds.lean ====
section
/-!
DEFINITION. Sys2Proof/Machine/CommandIds.lean: the third family, the frame rows (30_encoding.md R50, 42_command_ids.md).
What the assembler does for a COMMAND value is 42_command_ids.md R95: `FRM.START addr, cmd, len` with that value, which
the block copies and does not interpret. A frame row as an instruction is therefore the request for that frame. DESIGN
CHOICE (log entry 5, unsafe): the row's SEQ field is what such a frame carries, not an operand, because no operation
lets the host write `SEQ` (10_state.md R11); the frame emitted carries the block's own `SEQ` (41_frame.md R75).
-/
namespace Sys2Proof.Machine

/-- A request for the frame with this COMMAND value (42_command_ids.md R95). -/
def requestFrame (_seq addr cmd : Byte) (len : Word16) (s : State) : State := startFrame addr cmd len s

/-- `FRAME` with any COMMAND value (30_encoding.md R40, 42_command_ids.md R95, R108). -/
def execFrame (seq addr cmd : Byte) (len : Word16) (s : State) : Host.Outcome State Fault Refusal :=
  .next (requestFrame seq addr cmd len s)

/-- COMMAND 0x01 (42_command_ids.md R96). -/
def execFrameQueryVersion (seq addr : Byte) (len : Word16) (s : State) : Host.Outcome State Fault Refusal :=
  .next (requestFrame seq addr 0x01 len s)

/-- COMMAND 0x10 (42_command_ids.md R97). -/
def execFrameSetTime (seq addr : Byte) (len : Word16) (s : State) : Host.Outcome State Fault Refusal :=
  .next (requestFrame seq addr 0x10 len s)

/-- COMMAND 0x21 (42_command_ids.md R98). -/
def execFrameCancelTempDisplay (seq addr : Byte) (len : Word16) (s : State) : Host.Outcome State Fault Refusal :=
  .next (requestFrame seq addr 0x21 len s)

/-- COMMAND 0x22 (42_command_ids.md R99). -/
def execFramePlayVoice (seq addr : Byte) (len : Word16) (s : State) : Host.Outcome State Fault Refusal :=
  .next (requestFrame seq addr 0x22 len s)

/-- COMMAND 0x25 (42_command_ids.md R100). -/
def execFrameLoadAd (seq addr : Byte) (len : Word16) (s : State) : Host.Outcome State Fault Refusal :=
  .next (requestFrame seq addr 0x25 len s)

/-- COMMAND 0x35 (42_command_ids.md R101). -/
def execFrameLoadAdColor (seq addr : Byte) (len : Word16) (s : State) : Host.Outcome State Fault Refusal :=
  .next (requestFrame seq addr 0x35 len s)

/-- COMMAND 0x27 (42_command_ids.md R102). -/
def execFrameLoadTempDisplay (seq addr : Byte) (len : Word16) (s : State) : Host.Outcome State Fault Refusal :=
  .next (requestFrame seq addr 0x27 len s)

/-- COMMAND 0x37 (42_command_ids.md R103). -/
def execFrameLoadTempDisplayColorAlt (seq addr : Byte) (len : Word16) (s : State) : Host.Outcome State Fault Refusal :=
  .next (requestFrame seq addr 0x37 len s)

/-- COMMAND 0x28 (42_command_ids.md R104). -/
def execFrameLoadQrcode (seq addr : Byte) (len : Word16) (s : State) : Host.Outcome State Fault Refusal :=
  .next (requestFrame seq addr 0x28 len s)

/-- COMMAND 0x29 (42_command_ids.md R105). -/
def execFrameSmallScreenAllLines (seq addr : Byte) (len : Word16) (s : State) : Host.Outcome State Fault Refusal :=
  .next (requestFrame seq addr 0x29 len s)

/-- COMMAND 0x32 (42_command_ids.md R106). -/
def execFrameCacheVoice (seq addr : Byte) (len : Word16) (s : State) : Host.Outcome State Fault Refusal :=
  .next (requestFrame seq addr 0x32 len s)

/-- COMMAND 0xF0 (42_command_ids.md R107). -/
def execFrameSetVolume (seq addr : Byte) (len : Word16) (s : State) : Host.Outcome State Fault Refusal :=
  .next (requestFrame seq addr 0xF0 len s)

end Sys2Proof.Machine
end

