-- ==== Sys2Proof/Machine/Crc.lean ====
section
/-!
DEFINITION. Sys2Proof/Machine/Crc.lean: the first family, the three operations on the `CRC` register (40_crc.md R65 to
R67).
-/
namespace Sys2Proof.Machine

/-- `CRC.INIT` (40_crc.md R65). -/
def execCrcInit (s : State) : Host.Outcome State Fault Refusal :=
  .next (if s.phase = .payload then s.raise .busy else (s.setCrc Config.crcInit).respond .ok)

/-- `CRC.UPD b` (40_crc.md R66): it continues from whatever `CRC` holds. -/
def execCrcUpd (b : Byte) (s : State) : Host.Outcome State Fault Refusal :=
  .next (if s.phase = .payload then s.raise .busy else (s.setCrc (crcStep s.crc b)).respond .ok)

/-- `CRC.RD` (40_crc.md R67): allowed in both phases. -/
def execCrcRd (s : State) : Host.Outcome State Fault Refusal :=
  .next (s.respond (.okValue (s.crc.zeroExtend 32)))

end Sys2Proof.Machine
end

