-- ==== Sys2Proof/Machine/Dispatch.lean ====
section
/-!
DEFINITION. Sys2Proof/Machine/Dispatch.lean: one arm per constructor of `Instr`, each one direct call of its meaning.
-/
namespace Sys2Proof.Machine

def exec (i : Instr) (s : State) : Host.Outcome State Fault Refusal :=
  match i with
  | .crcInit => Sys2Proof.Machine.execCrcInit s
  | .crcUpd b => Sys2Proof.Machine.execCrcUpd b s
  | .crcRd => Sys2Proof.Machine.execCrcRd s
  | .frmStart addr cmd len => Sys2Proof.Machine.execFrmStart addr cmd len s
  | .frmData b => Sys2Proof.Machine.execFrmData b s
  | .statRd => Sys2Proof.Machine.execStatRd s
  | .frame seq addr cmd len => Sys2Proof.Machine.execFrame seq addr cmd len s
  | .frameQueryVersion seq addr len => Sys2Proof.Machine.execFrameQueryVersion seq addr len s
  | .frameSetTime seq addr len => Sys2Proof.Machine.execFrameSetTime seq addr len s
  | .frameCancelTempDisplay seq addr len => Sys2Proof.Machine.execFrameCancelTempDisplay seq addr len s
  | .framePlayVoice seq addr len => Sys2Proof.Machine.execFramePlayVoice seq addr len s
  | .frameLoadAd seq addr len => Sys2Proof.Machine.execFrameLoadAd seq addr len s
  | .frameLoadAdColor seq addr len => Sys2Proof.Machine.execFrameLoadAdColor seq addr len s
  | .frameLoadTempDisplay seq addr len => Sys2Proof.Machine.execFrameLoadTempDisplay seq addr len s
  | .frameLoadTempDisplayColorAlt seq addr len => Sys2Proof.Machine.execFrameLoadTempDisplayColorAlt seq addr len s
  | .frameLoadQrcode seq addr len => Sys2Proof.Machine.execFrameLoadQrcode seq addr len s
  | .frameSmallScreenAllLines seq addr len => Sys2Proof.Machine.execFrameSmallScreenAllLines seq addr len s
  | .frameCacheVoice seq addr len => Sys2Proof.Machine.execFrameCacheVoice seq addr len s
  | .frameSetVolume seq addr len => Sys2Proof.Machine.execFrameSetVolume seq addr len s

end Sys2Proof.Machine
end

