-- ==== Sys2Proof/Machine/Step.lean ====
section
/-!
DEFINITION. Sys2Proof/Machine/Step.lean: one step of the machine: take the host's next input and act on it
(20_memory.md R32, 70_reset_and_hazards.md R139).
-/
namespace Sys2Proof.Machine

/-- One word presented on the port: it runs, or it is refused with `IllegalOp` (30_encoding.md R46, 60_exceptions.md
R114). -/
def runWord (e : Encoded) (s : State) : Host.Outcome State Fault Refusal :=
  match decode e with
  | .instr i => exec i s
  | .illegal _ => .next (s.raise .illegalOp)

/-- One step. With no input waiting the block holds its state unchanged (60_exceptions.md R116, R126). -/
def step (s : State) : Host.Outcome State Fault Refusal :=
  match takeInput s with
  | none => .next s
  | some (.reset, t) => .next (resetEvent t)
  | some (.word e, t) => runWord e t

/-- `s` with the table word `w` as the very next input (log entry 4). -/
def State.withFetchWord (s : State) (nbits w : Nat) : State := s.presentFirst (.word (tableWord nbits w))

end Sys2Proof.Machine
end

