-- ==== Sys2Proof/Machine/Frames.lean ====
section
/-!
DEFINITION. Sys2Proof/Machine/Frames.lean: frames as byte sequences (30_encoding.md R40, R41) and the reader's side of
them (30_encoding.md R42). The block never parses a frame; these functions are what claims about `TX` are stated in.
-/
namespace Sys2Proof.Machine

/-- LENGTH of a payload (30_encoding.md R40, for at most 65535 bytes). -/
def payloadLength (p : List Byte) : Word16 := BitVec.ofNat 16 p.length

/-- `body(seq, addr, cmd, p)`, the checksummed span (30_encoding.md R40). -/
def body (seq addr cmd : Byte) (p : List Byte) : List Byte := countedBytes seq addr cmd (payloadLength p) ++ p

/-- `frame(seq, addr, cmd, p)` (30_encoding.md R40). -/
def frameBytes (o : CrcOrder) (seq addr cmd : Byte) (p : List Byte) : List Byte :=
  Config.header ++ body seq addr cmd p ++ crcBytes o (crc16 (body seq addr cmd p)) ++ [Config.terminator]

/-- The value of two bytes, high byte first (20_memory.md R27). -/
def bigEndian16 (hi lo : Byte) : Nat := 256 * hi.toNat + lo.toNat

/-- The well-formed frame of 30_encoding.md R42: header, RESERVED, total length from LENGTH, the CRC field over the span
from SEQ to the last payload byte, and the terminator. -/
def wellFormedFrame (o : CrcOrder) (f : List Byte) : Bool :=
  match f with
  | h0 :: h1 :: seq :: addr :: res :: cmd :: lh :: ll :: rest =>
    let n := bigEndian16 lh ll
    h0 == 0xAA && h1 == 0x55 && res == 0x00 && rest.length == n + 3 &&
      rest.drop n == crcBytes o (crc16 ([seq, addr, res, cmd, lh, ll] ++ rest.take n)) ++ [Config.terminator]
  | _ => false

/-- How a reader takes one frame off a stream: it counts by LENGTH and never scans for the terminator (30_encoding.md
R42). The pair is the frame and what follows it. -/
def readFrame (tx : List Byte) : Option (List Byte × List Byte) :=
  match tx with
  | h0 :: h1 :: _ :: _ :: res :: _ :: lh :: ll :: rest =>
    let n := bigEndian16 lh ll
    if h0 = 0xAA ∧ h1 = 0x55 ∧ res = 0x00 ∧ n + 3 ≤ rest.length then some (tx.take (n + 11), tx.drop (n + 11))
    else none
  | _ => none

end Sys2Proof.Machine
end

