-- ==== Sys2Proof/Machine/Pseudo.lean ====
section
/-!
DEFINITION. Sys2Proof/Machine/Pseudo.lean: the assembler's side: the default address (30_encoding.md R48) and the
pseudo-operations BUILD and CRC16 as sequences of real operations (30_encoding.md R49).
-/
namespace Sys2Proof.Machine

/-- Operations executed in issue order (20_memory.md R32). -/
def runInstrs : List Instr → State → Host.Outcome State Fault Refusal
  | [], s => .next s
  | i :: is, s =>
    match exec i s with
    | .next t => runInstrs is t
    | .fault r => .fault r
    | .refused r => .refused r

/-- FRM.START as written, with the address left out or given (30_encoding.md R48). -/
def assembleFrmStart (addr : Option Byte) (cmd : Byte) (len : Word16) : Instr :=
  .frmStart (addr.getD Config.defaultAddr) cmd len

/-- The operation words of a sequence of operations, as inputs of the port. -/
def portWords (is : List Instr) : List HostInput := is.map fun i => .word (encode i)

/-- The operations of `CRC16 [b0, ..., b(k-1)]` (30_encoding.md R49). -/
def crc16Instrs (bytes : List Byte) : List Instr := .crcInit :: (bytes.map .crcUpd ++ [.crcRd])

/-- The operations of an accepted `BUILD addr, cmd, p` (30_encoding.md R49). -/
def buildInstrs (addr cmd : Byte) (p : List Byte) : List Instr :=
  .frmStart addr cmd (payloadLength p) :: p.map .frmData

/-- `BUILD addr, cmd, p` (30_encoding.md R49): the data operations are issued only if the FRM.START was answered `ok`.
The pair is BUILD's own response and the block after it. A payload of more than 65535 bytes has no FRM.START word; BUILD
then answers what 41_frame.md R79 says and issues nothing (DEDUCED, log entry 10). -/
def build (addr cmd : Byte) (p : List Byte) (s : State) : Host.Outcome (Response × State) Fault Refusal :=
  if 65535 < p.length then .next (.err (if s.phase = .payload then .busy else .payloadTooLarge), s)
  else
    match exec (.frmStart addr cmd (payloadLength p)) s with
    | .fault r => .fault r
    | .refused r => .refused r
    | .next t =>
      match t.lastResponse with
      | some (.err e) => .next (.err e, t)
      | _ =>
        match runInstrs (p.map .frmData) t with
        | .next u => .next (.ok, u)
        | .fault r => .fault r
        | .refused r => .refused r

/-- BUILD as written, with the address left out or given (30_encoding.md R48, R49). -/
def assembleBuild (addr : Option Byte) (cmd : Byte) (p : List Byte) (s : State) :
    Host.Outcome (Response × State) Fault Refusal :=
  build (addr.getD Config.defaultAddr) cmd p s

/-- What a host asks one BUILD for. -/
structure BuildRequest where
  addr : Byte
  cmd : Byte
  payload : List Byte
  deriving DecidableEq, Repr

/-- Consecutive BUILDs (41_frame.md R81). -/
def buildAll : List BuildRequest → State → Host.Outcome State Fault Refusal
  | [], s => .next s
  | q :: qs, s =>
    match build q.addr q.cmd q.payload s with
    | .next (_, t) => buildAll qs t
    | .fault r => .fault r
    | .refused r => .refused r

end Sys2Proof.Machine
end

