-- ==== Sys2Proof/Machine/System.lean ====
section
/-!
DEFINITION. Sys2Proof/Machine/System.lean: several blocks in one system (60_exceptions.md R124). Each has its own
registers, `TX`, responses, inputs and parameters; they share nothing.
-/
namespace Sys2Proof.Machine

/-- The instances of a system. They have no identifiers (60_exceptions.md R124); a place in the list tells them apart. -/
structure System where
  blocks : List State
  deriving DecidableEq, Repr

/-- The instance at place `k` takes a step; a place with no instance has nothing to step. Which instance moves next is
the environment's choice, given as the argument (log entry 11). -/
def System.stepAt (k : Nat) (y : System) : Host.Outcome System Fault Refusal :=
  match y.blocks[k]? with
  | none => .next y
  | some s =>
    match step s with
    | .next t => .next { y with blocks := y.blocks.set k t }
    | .fault r => .fault r
    | .refused r => .refused r

end Sys2Proof.Machine
end

