-- ==== Sys2Proof/Safety.lean ====
section
/-!
DEFINITION. Sys2Proof/Safety.lean: what claims are stated in: the architectural registers, the answers and results that
the rules describe (written from 30_encoding.md R40, not from the operations), and the invariants of the block.
-/
namespace Sys2Proof.Machine

/-- The architectural state of one block, exactly this tuple (10_state.md R14). -/
def State.registers (s : State) : Word16 × Byte × Phase × Word16 := (s.crc, s.seq, s.phase, s.rem)

/-- `s` with one more response and nothing else changed. -/
def answered (r : Response) (s : State) : State := { s with responses := s.responses ++ [r] }

/-- `s` after an accepted FRM.START (41_frame.md R75): a whole frame for `len = 0`, else the header and the six counted
bytes of one. -/
def frameAccepted (addr cmd : Byte) (len : Word16) (s : State) : State :=
  if len = 0 then
    { s with
      crc := crc16 (body s.seq addr cmd [])
      seq := s.seq + 1
      phase := .idle
      rem := 0
      tx := s.tx ++ frameBytes s.params.crcOrder s.seq addr cmd []
      responses := s.responses ++ [.ok] }
  else
    { s with
      crc := crc16 (countedBytes s.seq addr cmd len)
      phase := .payload
      rem := len
      tx := s.tx ++ (Config.header ++ countedBytes s.seq addr cmd len)
      responses := s.responses ++ [.ok] }

/-- 10_state.md R22. -/
def PhaseRemInv (s : State) : Prop :=
  (s.phase = .idle ↔ s.rem = 0) ∧
    (s.phase = .payload → 1 ≤ s.rem.toNat ∧ s.rem.toNat ≤ s.params.maxPayload.toNat)

/-- `TX` is `before` and then the frame in progress: header, the six counted bytes with the block's `SEQ` and some
declared length, and the payload bytes supplied so far, `REM` short of that length; and `CRC` is the running checksum
from SEQ on (10_state.md R13, R20). -/
def OpenFrame (before : List Byte) (s : State) : Prop :=
  ∃ (addr cmd : Byte) (len : Word16) (p : List Byte),
    s.tx = before ++ Config.header ++ (countedBytes s.seq addr cmd len ++ p) ∧
    p.length + s.rem.toNat = len.toNat ∧
    s.crc = crc16 (countedBytes s.seq addr cmd len ++ p)

/-- 10_state.md R22 and R20. -/
def RunningChecksumInv (s : State) : Prop :=
  PhaseRemInv s ∧ (s.phase = .payload → ∃ before, OpenFrame before s)

/-- A concatenation of well-formed frames and of nothing else (30_encoding.md R42, 70_reset_and_hazards.md R139). -/
def WholeFrames (o : CrcOrder) (bytes : List Byte) : Prop :=
  ∃ fs : List (List Byte), (∀ f ∈ fs, wellFormedFrame o f = true) ∧ bytes = fs.flatten

/-- The `TX` of a run in which no reset fell into a frame (41_frame.md R80, 70_reset_and_hazards.md R139). -/
def StreamInv (s : State) : Prop :=
  PhaseRemInv s ∧
  (s.phase = .idle → WholeFrames s.params.crcOrder s.tx) ∧
  (s.phase = .payload → ∃ before, WholeFrames s.params.crcOrder before ∧ OpenFrame before s)

/-- The next input is a reset event that falls into a frame in progress (70_reset_and_hazards.md R131). -/
def ResetInFrame (s : State) : Prop := s.phase = .payload ∧ s.pending.head? = some .reset

/-- A run ended cleanly (70_reset_and_hazards.md R139). -/
def CleanEnd (s : State) : Prop := s.phase = .idle

/-- The phase errors of an operation, decided from `PHASE` (60_exceptions.md R111, R112). -/
def phaseError : Phase → Instr → Option ErrorCode
  | .payload, .crcInit => some .busy
  | .payload, .crcUpd _ => some .busy
  | .payload, .frmStart _ _ _ => some .busy
  | .idle, .frmData _ => some .notInFrame
  | _, _ => none

/-- The operand error of an operation (60_exceptions.md R110). -/
def operandError (maxPayload : Word16) : Instr → Option ErrorCode
  | .frmStart _ _ len => if maxPayload.toNat < len.toNat then some .payloadTooLarge else none
  | _ => none

/-- The one error reported for an operation word in the state `s`, in the order decode, phase, operand
(60_exceptions.md R117). -/
def reportedError (s : State) : Decoded → Option ErrorCode
  | .illegal _ => some .illegalOp
  | .instr i => (phaseError s.phase i).or (operandError s.params.maxPayload i)

/-- The frame an instruction asks for: ADDRESS, COMMAND, LENGTH (FRM.START, 41_frame.md R75; the frame rows,
42_command_ids.md R95 and log entry 5). -/
def frameRequest : Instr → Option (Byte × Byte × Word16)
  | .crcInit | .crcUpd _ | .crcRd | .frmData _ | .statRd => none
  | .frmStart addr cmd len => some (addr, cmd, len)
  | .frame _ addr cmd len => some (addr, cmd, len)
  | .frameQueryVersion _ addr len => some (addr, 0x01, len)
  | .frameSetTime _ addr len => some (addr, 0x10, len)
  | .frameCancelTempDisplay _ addr len => some (addr, 0x21, len)
  | .framePlayVoice _ addr len => some (addr, 0x22, len)
  | .frameLoadAd _ addr len => some (addr, 0x25, len)
  | .frameLoadAdColor _ addr len => some (addr, 0x35, len)
  | .frameLoadTempDisplay _ addr len => some (addr, 0x27, len)
  | .frameLoadTempDisplayColorAlt _ addr len => some (addr, 0x37, len)
  | .frameLoadQrcode _ addr len => some (addr, 0x28, len)
  | .frameSmallScreenAllLines _ addr len => some (addr, 0x29, len)
  | .frameCacheVoice _ addr len => some (addr, 0x32, len)
  | .frameSetVolume _ addr len => some (addr, 0xF0, len)

end Sys2Proof.Machine
end

