-- ==== Sys2Proof/Certificates/Slice0/Obligations.lean ====
section
/-!
DEFINITION. Sys2Proof/Certificates/Slice0/Obligations.lean: the statements for the provers, family by family: the checksum
function, the CRC operations, the frame assembler, the frame rows, errors, state and reset, invariants, encodings, the
port, whole frames.
-/
open Sys2Proof Sys2Proof.Machine

/-! ## The checksum function -/

/-- 40_crc.md R62: `T[i] = crc_step(0, i)` for the table as printed, and `crc_step` is its table form. -/
def Obligations.CrcStepIsItsTableForm : Prop :=
  crcTable.length = 256 ∧ (∀ i : Byte, tableEntry i = crcStep 0 i) ∧
    ∀ (c : Word16) (b : Byte),
      crcStep c b = (c >>> 8) ^^^ tableEntry ((c ^^^ b.zeroExtend 16).extractLsb' 0 8)

/-- 40_crc.md R63: one step on the two halves, and the result `{CRCHI, CRCLO}` of the whole computation. -/
def Obligations.CrcHalfRegisterFormAgrees : Prop :=
  (∀ (c : Word16) (b : Byte),
    lo8 (crcStep c b) = lo8 (tableEntry (lo8 c ^^^ b)) ^^^ hi8 c ∧
    hi8 (crcStep c b) = hi8 (tableEntry (lo8 c ^^^ b))) ∧
  ∀ s : List Byte,
    let halves := s.foldl (fun q b => crcStepHalves q.1 q.2 b) ((0xFF, 0xFF) : Byte × Byte)
    crc16 s = halves.1 ++ halves.2

/-- 40_crc.md R64: (a) the empty sequence, (b) continuation, (c) the residue for the low-byte-first append and its
failure in the other order, (d) bijection in the accumulator and injection in the byte. -/
def Obligations.ChecksumProperties : Prop :=
  crc16 [] = 0xFFFF ∧
  (∀ (s : List Byte) (b : Byte), crc16 (s ++ [b]) = crcStep (crc16 s) b) ∧
  (∀ s : List Byte, crc16 (s ++ [lo8 (crc16 s), hi8 (crc16 s)]) = 0) ∧
  (crc16 [0x00] = 0x40BF ∧ crc16 [0x00, 0x40, 0xBF] = 0xB001) ∧
  (∀ b : Byte, Function.Bijective fun c : Word16 => crcStep c b) ∧
  (∀ c : Word16, Function.Injective fun b : Byte => crcStep c b)

/-! ## The CRC operations -/

/-- 40_crc.md R65: its word; in IDLE, `CRC` alone is set to 0xFFFF; in PAYLOAD, `Busy` and nothing else. -/
def Obligations.CrcInitResult : Prop :=
  decodeOp 0x0100000000 = .instr .crcInit ∧ ∀ s : State,
    (s.phase = .idle → exec .crcInit s = .next { s with crc := 0xFFFF, responses := s.responses ++ [.ok] }) ∧
    (s.phase = .payload → exec .crcInit s = .next { s with responses := s.responses ++ [.err .busy] })

/-- 40_crc.md R66: its word; in IDLE, `CRC` alone takes one step from whatever it holds; in PAYLOAD, `Busy` and nothing
else. -/
def Obligations.CrcUpdResult : Prop :=
  (∀ (b : Byte) (w : OpWord), w.toNat = 0x0200000000 + b.toNat → decodeOp w = .instr (.crcUpd b)) ∧
  ∀ (b : Byte) (s : State),
    (s.phase = .idle →
      exec (.crcUpd b) s = .next { s with crc := crcStep s.crc b, responses := s.responses ++ [.ok] }) ∧
    (s.phase = .payload → exec (.crcUpd b) s = .next { s with responses := s.responses ++ [.err .busy] })

/-- 40_crc.md R67: its word; in both phases the value of `CRC` is the response and nothing else changes. (A response value has 32
bits in this model, the upper 16 zero: log entry 8.) -/
def Obligations.CrcRdResult : Prop :=
  decodeOp 0x0300000000 = .instr .crcRd ∧
  ∀ s : State, exec .crcRd s = .next { s with responses := s.responses ++ [.okValue ((0 : Word16) ++ s.crc)] }

/-- 40_crc.md R68: the net effect of `CRC16 [b0, ..., b(k-1)]` in either phase, response by response. -/
def Obligations.Crc16NetEffect : Prop :=
  ∀ (bytes : List Byte) (s : State),
    (s.phase = .idle →
      runInstrs (crc16Instrs bytes) s = .next { s with
        crc := crc16 bytes
        responses := s.responses ++ List.replicate (bytes.length + 1) .ok ++ [.okValue ((0 : Word16) ++ crc16 bytes)] }) ∧
    (s.phase = .payload →
      runInstrs (crc16Instrs bytes) s = .next { s with
        responses := s.responses ++ List.replicate (bytes.length + 1) (.err .busy) ++
          [.okValue ((0 : Word16) ++ s.crc)] })

/-- 20_memory.md R29: `CRC.RD` and `STAT.RD` issued twice return the same value and change no register; `CRC.INIT` twice
leaves the registers as once. -/
def Obligations.ReadsAndInitAreIdempotent : Prop :=
  ∀ s : State,
    (∃ t v, runInstrs [.crcRd, .crcRd] s = .next t ∧ t.responses = s.responses ++ [.okValue v, .okValue v] ∧
      t.registers = s.registers ∧ t.tx = s.tx) ∧
    (∃ t v, runInstrs [.statRd, .statRd] s = .next t ∧ t.responses = s.responses ++ [.okValue v, .okValue v] ∧
      t.registers = s.registers ∧ t.tx = s.tx) ∧
    (∃ t u, runInstrs [.crcInit] s = .next t ∧ runInstrs [.crcInit, .crcInit] s = .next u ∧
      u.registers = t.registers ∧ u.tx = s.tx ∧ t.tx = s.tx)

/-! ## The frame assembler -/

/-- 41_frame.md R75: its word; accepted in IDLE with `len <= MAX_PAYLOAD` (header and six counted bytes emitted, the latter
checksummed from 0xFFFF; for `len = 0` a whole frame), refused with `Busy` in PAYLOAD, and with `PayloadTooLarge` in IDLE
beyond `MAX_PAYLOAD`; nothing else changes. -/
def Obligations.FrmStartResult : Prop :=
  (∀ (addr cmd : Byte) (len : Word16) (w : OpWord),
    w.toNat = 0x10 * 2 ^ 32 + addr.toNat * 2 ^ 24 + cmd.toNat * 2 ^ 16 + len.toNat →
    decodeOp w = .instr (.frmStart addr cmd len)) ∧
  ∀ (addr cmd : Byte) (len : Word16) (s : State),
    (s.phase = .idle → len.toNat ≤ s.params.maxPayload.toNat → len ≠ 0 →
      exec (.frmStart addr cmd len) s = .next { s with
        crc := crc16 [s.seq, addr, 0x00, cmd, hi8 len, lo8 len]
        phase := .payload
        rem := len
        tx := s.tx ++ [0xAA, 0x55] ++ [s.seq, addr, 0x00, cmd, hi8 len, lo8 len]
        responses := s.responses ++ [.ok] }) ∧
    (s.phase = .idle → len = 0 →
      exec (.frmStart addr cmd len) s = .next { s with
        crc := crc16 [s.seq, addr, 0x00, cmd, 0x00, 0x00]
        seq := s.seq + 1
        phase := .idle
        rem := 0
        tx := s.tx ++ [0xAA, 0x55] ++ [s.seq, addr, 0x00, cmd, 0x00, 0x00] ++
          crcBytes s.params.crcOrder (crc16 [s.seq, addr, 0x00, cmd, 0x00, 0x00]) ++ [0xAF]
        responses := s.responses ++ [.ok] }) ∧
    (s.phase = .payload → exec (.frmStart addr cmd len) s = .next (answered (.err .busy) s)) ∧
    (s.phase = .idle → s.params.maxPayload.toNat < len.toNat →
      exec (.frmStart addr cmd len) s = .next (answered (.err .payloadTooLarge) s))

/-- 41_frame.md R76: the completion step: the two CRC bytes in the block's order, the terminator, `SEQ + 1` modulo 256,
IDLE, `REM = 0`, and nothing else. -/
def Obligations.CompleteFrameStep : Prop :=
  ∀ s : State,
    (s.params.crcOrder = .le →
      completeFrame s = { s with
        tx := s.tx ++ [lo8 s.crc, hi8 s.crc, 0xAF], seq := s.seq + 1, phase := .idle, rem := 0 }) ∧
    (s.params.crcOrder = .be →
      completeFrame s = { s with
        tx := s.tx ++ [hi8 s.crc, lo8 s.crc, 0xAF], seq := s.seq + 1, phase := .idle, rem := 0 }) ∧
    (completeFrame s).seq.toNat = (s.seq.toNat + 1) % 256

/-- 41_frame.md R77: its word; `NotInFrame` in IDLE; in PAYLOAD the byte is emitted and checksummed and `REM` goes down by one,
the last byte completing the frame; nothing else changes. (`REM` = 0 in PAYLOAD is ruled out by 10_state.md R22, see
StepKeepsPhaseRemInvariant.) -/
def Obligations.FrmDataResult : Prop :=
  (∀ (b : Byte) (w : OpWord), w.toNat = 0x1100000000 + b.toNat → decodeOp w = .instr (.frmData b)) ∧
  ∀ (b : Byte) (s : State),
    (s.phase = .idle → exec (.frmData b) s = .next (answered (.err .notInFrame) s)) ∧
    (s.phase = .payload → 2 ≤ s.rem.toNat →
      exec (.frmData b) s = .next { s with
        crc := crcStep s.crc b
        rem := BitVec.ofNat 16 (s.rem.toNat - 1)
        tx := s.tx ++ [b]
        responses := s.responses ++ [.ok] }) ∧
    (s.phase = .payload → s.rem.toNat = 1 →
      exec (.frmData b) s = .next { s with
        crc := crcStep s.crc b
        seq := s.seq + 1
        phase := .idle
        rem := 0
        tx := s.tx ++ [b] ++ crcBytes s.params.crcOrder (crcStep s.crc b) ++ [0xAF]
        responses := s.responses ++ [.ok] })

/-- 41_frame.md R78 (with `BUSY` of 10_state.md R17): its word; in both phases the response is a value whose bits 31:25 are 0, bit
24 is 1 exactly in PAYLOAD, bits 23:16 are `SEQ` and bits 15:0 are `REM`; nothing else changes. -/
def Obligations.StatRdResult : Prop :=
  decodeOp 0x2000000000 = .instr .statRd ∧
  ∀ s : State, ∃ v : BitVec 32,
    exec .statRd s = .next { s with responses := s.responses ++ [.okValue v] } ∧
    v.extractLsb' 25 7 = 0 ∧ (v.getLsbD 24 = true ↔ s.phase = .payload) ∧
    v.extractLsb' 16 8 = s.seq ∧ v.extractLsb' 0 16 = s.rem

/-- 41_frame.md R83: the phase transition table, row by row, for the states 10_state.md R22 allows: `PHASE` and `REM`
afterwards, and a refused operation leaves everything alone but for its answer. -/
def Obligations.PhaseTransitionTable : Prop :=
  ∀ s : State, PhaseRemInv s →
    (∀ (addr cmd : Byte) (len : Word16), ∃ t, exec (.frmStart addr cmd len) s = .next t ∧
      (s.phase = .idle → s.params.maxPayload.toNat < len.toNat →
        t = answered (.err .payloadTooLarge) s ∧ t.phase = .idle ∧ t.rem = 0) ∧
      (s.phase = .idle → len = 0 → t.phase = .idle ∧ t.rem = 0) ∧
      (s.phase = .idle → 1 ≤ len.toNat → len.toNat ≤ s.params.maxPayload.toNat → t.phase = .payload ∧ t.rem = len) ∧
      (s.phase = .payload → t = answered (.err .busy) s)) ∧
    (∀ b : Byte, ∃ t, exec (.frmData b) s = .next t ∧
      (s.phase = .idle → t = answered (.err .notInFrame) s ∧ t.phase = .idle ∧ t.rem = 0) ∧
      (s.phase = .payload → 2 ≤ s.rem.toNat → t.phase = .payload ∧ t.rem.toNat = s.rem.toNat - 1) ∧
      (s.phase = .payload → s.rem = 1 → t.phase = .idle ∧ t.rem = 0)) ∧
    (∀ i : Instr, i = .crcInit ∨ (∃ b, i = .crcUpd b) →
      ∃ t, exec i s = .next t ∧ t.phase = s.phase ∧ t.rem = s.rem ∧
        (s.phase = .payload → t = answered (.err .busy) s)) ∧
    (∀ i : Instr, i = .crcRd ∨ i = .statRd → ∃ t, exec i s = .next t ∧ t.phase = s.phase ∧ t.rem = s.rem) ∧
    ((resetEvent s).phase = .idle ∧ (resetEvent s).rem = 0)

/-- 20_memory.md R29, the widths: what each instruction emits: FRM.START (and, log entry 5, a frame row) nothing, 8 bytes
(`len` not 0) or 11 bytes (`len` = 0); FRM.DATA nothing, its byte, or its byte and 3 more; the others nothing. -/
def Obligations.EmissionWidths : Prop :=
  ∀ (i : Instr) (s t : State), exec i s = .next t →
    ∃ out : List Byte, t.tx = s.tx ++ out ∧
      match frameRequest i, i with
      | some (_, _, len), _ => out = [] ∨ (len ≠ 0 ∧ out.length = 8) ∨ (len = 0 ∧ out.length = 11)
      | none, .frmData b => out = [] ∨ out = [b] ∨ (out.length = 4 ∧ out.head? = some b)
      | none, _ => out = []

/-! ## The frame rows -/

/-- The frame rows (30_encoding.md R50, 42_command_ids.md). THE MODEL'S CHOICE (log entry 5): as an instruction, a frame
row is the request for that frame; in IDLE and within `MAX_PAYLOAD` it is accepted as FRM.START with the row's COMMAND
value is. Each of the thirteen rows, every field value. -/
def Obligations.FrameRowsAreAccepted : Prop :=
  ∀ (seq addr cmd : Byte) (len : Word16) (s : State), s.phase = .idle → len.toNat ≤ s.params.maxPayload.toNat →
    exec (.frame seq addr cmd len) s = .next (frameAccepted addr cmd len s) ∧
    exec (.frameQueryVersion seq addr len) s = .next (frameAccepted addr 0x01 len s) ∧
    exec (.frameSetTime seq addr len) s = .next (frameAccepted addr 0x10 len s) ∧
    exec (.frameCancelTempDisplay seq addr len) s = .next (frameAccepted addr 0x21 len s) ∧
    exec (.framePlayVoice seq addr len) s = .next (frameAccepted addr 0x22 len s) ∧
    exec (.frameLoadAd seq addr len) s = .next (frameAccepted addr 0x25 len s) ∧
    exec (.frameLoadAdColor seq addr len) s = .next (frameAccepted addr 0x35 len s) ∧
    exec (.frameLoadTempDisplay seq addr len) s = .next (frameAccepted addr 0x27 len s) ∧
    exec (.frameLoadTempDisplayColorAlt seq addr len) s = .next (frameAccepted addr 0x37 len s) ∧
    exec (.frameLoadQrcode seq addr len) s = .next (frameAccepted addr 0x28 len s) ∧
    exec (.frameSmallScreenAllLines seq addr len) s = .next (frameAccepted addr 0x29 len s) ∧
    exec (.frameCacheVoice seq addr len) s = .next (frameAccepted addr 0x32 len s) ∧
    exec (.frameSetVolume seq addr len) s = .next (frameAccepted addr 0xF0 len s)

/-- The frame rows when the request is turned away. THE MODEL'S CHOICE (log entry 5): as FRM.START would be, with `Busy`
in PAYLOAD and `PayloadTooLarge` in IDLE beyond `MAX_PAYLOAD`. -/
def Obligations.FrameRowsAreRefusedAsFrmStart : Prop :=
  ∀ (i : Instr) (addr cmd : Byte) (len : Word16) (s : State), frameRequest i = some (addr, cmd, len) →
    (s.phase = .payload → exec i s = .next (answered (.err .busy) s)) ∧
    (s.phase = .idle → s.params.maxPayload.toNat < len.toNat →
      exec i s = .next (answered (.err .payloadTooLarge) s))

/-- 42_command_ids.md R95: every COMMAND value is accepted, stands at frame offset 5, is the fourth checksummed byte, and
changes nothing else; where FRM.START is refused the value does not matter at all. -/
def Obligations.CommandByteIsOpaque : Prop :=
  ∀ (addr cmd cmd' : Byte) (len : Word16) (s : State),
    (s.phase = .idle → len.toNat ≤ s.params.maxPayload.toNat →
      ∃ (t t' : State) (out out' : List Byte),
        exec (.frmStart addr cmd len) s = .next t ∧ exec (.frmStart addr cmd' len) s = .next t' ∧
        t.tx = s.tx ++ out ∧ t'.tx = s.tx ++ out' ∧ out.length = out'.length ∧
        out[5]? = some cmd ∧ out'[5]? = some cmd' ∧ (∀ k, k < 8 → k ≠ 5 → out[k]? = out'[k]?) ∧
        t.crc = crc16 [s.seq, addr, 0x00, cmd, hi8 len, lo8 len] ∧
        t'.crc = crc16 [s.seq, addr, 0x00, cmd', hi8 len, lo8 len] ∧
        t'.seq = t.seq ∧ t'.phase = t.phase ∧ t'.rem = t.rem ∧ t'.responses = t.responses) ∧
    (s.phase = .payload ∨ s.params.maxPayload.toNat < len.toNat →
      exec (.frmStart addr cmd len) s = exec (.frmStart addr cmd' len) s)

/-- 30_encoding.md R50: the frame decoder, run on what an accepted FRM.START emits, reads the row of its COMMAND value
with the block's SEQ and the operands. -/
def Obligations.EmittedHeadDecodesToItsRow : Prop :=
  ∀ (addr cmd : Byte) (len : Word16) (s : State), s.phase = .idle → len.toNat ≤ s.params.maxPayload.toNat →
    ∃ (t : State) (out : List Byte), exec (.frmStart addr cmd len) s = .next t ∧ t.tx = s.tx ++ out ∧
      decodeFrameBytes out = .instr (frameRow s.seq addr cmd len)

/-! ## Errors -/

/-- 60_exceptions.md R118: a refused operation adds its response and writes no state element and emits nothing: the
block is as before but for the input taken and the answer given. -/
def Obligations.RefusalChangesNothing : Prop :=
  ∀ (s t : State) (e : ErrorCode), step s = .next t → t.responses = s.responses ++ [.err e] →
    t.registers = s.registers ∧ t.tx = s.tx ∧ t.params = s.params ∧ t.pending = s.pending.tail

/-- 60_exceptions.md R110: among operation words, exactly FRM.START in IDLE with `len > MAX_PAYLOAD`. -/
def Obligations.PayloadTooLargeExactly : Prop :=
  ∀ (s : State) (w : OpWord) (rest : List HostInput), s.pending = .word (.op w) :: rest →
    ∃ t, step s = .next t ∧
      (t.responses = s.responses ++ [.err .payloadTooLarge] ↔
        s.phase = .idle ∧ ∃ addr cmd len, decodeOp w = .instr (.frmStart addr cmd len) ∧
          s.params.maxPayload.toNat < len.toNat) ∧
      (t.responses = s.responses ++ [.err .payloadTooLarge] → t.registers = s.registers ∧ t.tx = s.tx)

/-- 60_exceptions.md R111: among operation words, exactly FRM.START, CRC.INIT and CRC.UPD in PAYLOAD. -/
def Obligations.BusyExactly : Prop :=
  ∀ (s : State) (w : OpWord) (rest : List HostInput), s.pending = .word (.op w) :: rest →
    ∃ t, step s = .next t ∧
      (t.responses = s.responses ++ [.err .busy] ↔
        s.phase = .payload ∧ (decodeOp w = .instr .crcInit ∨ (∃ b, decodeOp w = .instr (.crcUpd b)) ∨
          ∃ addr cmd len, decodeOp w = .instr (.frmStart addr cmd len))) ∧
      (t.responses = s.responses ++ [.err .busy] → t.registers = s.registers ∧ t.tx = s.tx)

/-- 60_exceptions.md R112: among operation words, exactly FRM.DATA in IDLE. -/
def Obligations.NotInFrameExactly : Prop :=
  ∀ (s : State) (w : OpWord) (rest : List HostInput), s.pending = .word (.op w) :: rest →
    ∃ t, step s = .next t ∧
      (t.responses = s.responses ++ [.err .notInFrame] ↔
        s.phase = .idle ∧ ∃ b, decodeOp w = .instr (.frmData b)) ∧
      (t.responses = s.responses ++ [.err .notInFrame] → t.registers = s.registers ∧ t.tx = s.tx)

/-- 60_exceptions.md R114 and 30_encoding.md R46: in either phase, exactly the words that match no row of 30_encoding.md
R44, a frame in progress staying in progress. -/
def Obligations.IllegalOpExactly : Prop :=
  (∀ w : OpWord, (∃ why, decodeOp w = .illegal why) ↔ ∀ r ∈ opRows, r.covers w = false) ∧
  ∀ (s : State) (w : OpWord) (rest : List HostInput), s.pending = .word (.op w) :: rest →
    ∃ t, step s = .next t ∧
      (t.responses = s.responses ++ [.err .illegalOp] ↔ ∀ r ∈ opRows, r.covers w = false) ∧
      (t.responses = s.responses ++ [.err .illegalOp] → t.registers = s.registers ∧ t.tx = s.tx)

/-- 60_exceptions.md R117: for every operation word in every state, exactly the one error that the order of checks
reports (decode, then phase, then operand), or none. -/
def Obligations.ErrorPriority : Prop :=
  ∀ (s : State) (w : OpWord) (rest : List HostInput), s.pending = .word (.op w) :: rest →
    ∃ t, step s = .next t ∧
      ∀ e : ErrorCode, t.responses = s.responses ++ [.err e] ↔ reportedError s (decodeOp w) = some e

/-- 60_exceptions.md R119: a run of refused words of any length, illegal words among them, leaves the block exactly
where it was: only the answers are given and the inputs taken. -/
def Obligations.RefusedRunsLeaveNoTrace : Prop :=
  ∀ (k : Nat) (s t : State), Host.Core.run core k s = .next t →
    (∃ es : List ErrorCode, es.length = k ∧ t.responses = s.responses ++ es.map .err) →
    t.registers = s.registers ∧ t.tx = s.tx ∧ t.params = s.params ∧ t.pending = s.pending.drop k

/-- Every word, legal or not, is taken and answered with exactly one response: for operation words 30_encoding.md R43 and
20_memory.md R32. THE MODEL'S CHOICE for words of the frame format, which R43 does not let a host present: a frame row is
answered as the request for its frame (log entry 5) and a head that is no row with `IllegalOp` (log entry 6). -/
def Obligations.EveryWordIsAnsweredOnce : Prop :=
  ∀ (s : State) (e : Encoded) (rest : List HostInput), s.pending = .word e :: rest →
    ∃ (t : State) (r : Response), step s = .next t ∧ t.responses = s.responses ++ [r] ∧ t.pending = rest

/-- 93_implementation_defined.md, section 1: the block is total: from every state a step answers a next state, with an
input waiting or without. -/
def Obligations.StepNeverStops : Prop :=
  ∀ s : State, ∃ t, step s = .next t

/-! ## State and reset -/

/-- 10_state.md R21 for every choice of the parameters: in a block just built, and after a reset event in any state (the
value of `SEQ_INIT` in `State.reset` itself is the model's, log entry 2, and is not stated). -/
def Obligations.ResetStateRegisters : Prop :=
  (∀ p : Params, (State.built p).registers = (0xFFFF, p.seqInit, Phase.idle, 0)) ∧
  ∀ s : State, (resetEvent s).registers = (0xFFFF, s.params.seqInit, Phase.idle, 0)

/-- 70_reset_and_hazards.md R130: the whole effect of the reset event: it is taken like an input, writes the four
registers, keeps `TX`, emits nothing and gives no response. -/
def Obligations.ResetEventResult : Prop :=
  (∀ (s : State) (rest : List HostInput), s.pending = .reset :: rest →
    step s = .next { s with
      crc := 0xFFFF, seq := s.params.seqInit, phase := .idle, rem := 0, pending := rest }) ∧
  ∀ p : Params, (State.built p).tx = [] ∧ resetEvent (State.built p) = State.built p

/-- 70_reset_and_hazards.md R131: a reset while a frame is in progress, then an accepted FRM.START: the truncated bytes
stay, nothing marks the break, and the next frame begins directly after them with `SEQ_INIT`. -/
def Obligations.ResetAbandonsTheFrame : Prop :=
  ∀ (s : State) (addr cmd : Byte) (len : Word16) (rest : List HostInput), s.phase = .payload →
    len ≠ 0 → len.toNat ≤ s.params.maxPayload.toNat →
    s.pending = .reset :: .word (encode (.frmStart addr cmd len)) :: rest →
    ∃ t, Host.Core.run core 2 s = .next t ∧
      t.tx = s.tx ++ [0xAA, 0x55, s.params.seqInit, addr, 0x00, cmd, hi8 len, lo8 len] ∧
      t.seq = s.params.seqInit ∧ t.phase = .payload ∧ t.rem = len

/-- 10_state.md R11: `SEQ` is written only by frame completion, which adds one modulo 256 and closes the frame, and by
reset. -/
def Obligations.SeqIsWrittenOnlyByCompletionAndReset : Prop :=
  ∀ s t : State, step s = .next t →
    (s.pending.head? = some .reset ∧ t.seq = s.params.seqInit) ∨
    (s.pending.head? ≠ some .reset ∧ t.seq = s.seq) ∨
    (s.pending.head? ≠ some .reset ∧ t.seq.toNat = (s.seq.toNat + 1) % 256 ∧ t.phase = .idle ∧
      ∃ out, t.tx = s.tx ++ out ++ crcBytes s.params.crcOrder t.crc ++ [0xAF])

/-- 10_state.md R10, R20: which instruction can change `CRC`, and when: while busy only FRM.DATA does; CRC.RD and STAT.RD
never do. -/
def Obligations.CrcIsWrittenOnlyByItsWriters : Prop :=
  ∀ (i : Instr) (s t : State), exec i s = .next t → t.crc ≠ s.crc →
    (s.phase = .idle ∧ (i = .crcInit ∨ (∃ b, i = .crcUpd b) ∨ (frameRequest i).isSome = true)) ∨
    (s.phase = .payload ∧ ∃ b, i = .frmData b ∧ t.crc = crcStep s.crc b)

/-- 20_memory.md R25 and 10_state.md R14: `TX` only grows at its end, and what the block was built with never changes. -/
def Obligations.TxOnlyGrows : Prop :=
  ∀ s t : State, step s = .next t → t.params = s.params ∧ ∃ out, t.tx = s.tx ++ out

/-- 20_memory.md R32 (c): while a frame is in progress the only input that emits is a word that decodes to FRM.DATA, and
its byte follows at once. -/
def Obligations.OnlyDataEmitsInsideAFrame : Prop :=
  ∀ (s t : State) (out : List Byte), s.phase = .payload → step s = .next t → t.tx = s.tx ++ out → out ≠ [] →
    ∃ (w : OpWord) (b : Byte) (rest : List HostInput), s.pending = .word (.op w) :: rest ∧
      decodeOp w = .instr (.frmData b) ∧ out.head? = some b

/-- 70_reset_and_hazards.md R134: an accepted FRM.START makes the previous value of `CRC` unreadable: two blocks that
differ only in it are the same afterwards. -/
def Obligations.AcceptedFrmStartForgetsCrc : Prop :=
  ∀ (addr cmd : Byte) (len c : Word16) (s : State), s.phase = .idle → len.toNat ≤ s.params.maxPayload.toNat →
    exec (.frmStart addr cmd len) { s with crc := c } = exec (.frmStart addr cmd len) s

/-! ## Invariants -/

/-- 10_state.md R22, kept by every step from every state that meets it. -/
def Obligations.StepKeepsPhaseRemInvariant : Prop :=
  ∀ s t : State, PhaseRemInv s → step s = .next t → PhaseRemInv t

/-- 10_state.md R20 (with R22): while a frame is in progress `TX` ends with it, `REM` bytes short of its declared length,
and `CRC` holds the checksum of its bytes from SEQ on; kept by every step, resets among them. -/
def Obligations.StepKeepsRunningChecksum : Prop :=
  ∀ s t : State, RunningChecksumInv s → step s = .next t → RunningChecksumInv t

/-- 70_reset_and_hazards.md R139, 41_frame.md R80: `TX` is a concatenation of well-formed frames, and while busy one
more frame in progress; kept by every step that is not a reset inside a frame. -/
def Obligations.StepKeepsStreamOfFrames : Prop :=
  ∀ s t : State, StreamInv s → ¬ ResetInFrame s → step s = .next t → StreamInv t

/-- A block just built meets the three invariants, whatever its parameters. -/
def Obligations.BuiltBlockMeetsInvariants : Prop :=
  ∀ p : Params, PhaseRemInv (State.built p) ∧ RunningChecksumInv (State.built p) ∧ StreamInv (State.built p)

/-- 10_state.md R22: in every state reached from a block just built, whatever its parameters, by any sequence of host
inputs (operation words, illegal words, frame heads, resets). -/
def Obligations.ReachableStatesKeepPhaseAndRemTogether : Prop :=
  ∀ (p : Params) (inputs : List HostInput) (k : Nat) (t : State),
    Host.Core.run core k { State.built p with pending := inputs } = .next t →
    (t.phase = .idle ↔ t.rem = 0) ∧
      (t.phase = .payload → 1 ≤ t.rem.toNat ∧ t.rem.toNat ≤ p.maxPayload.toNat)

/-- 70_reset_and_hazards.md R139: a run from a block just built, with any inputs but resets, that ended cleanly: `TX` is a
concatenation of well-formed frames and of nothing else. -/
def Obligations.CleanRunsEmitWholeFrames : Prop :=
  ∀ (p : Params) (inputs : List HostInput) (t : State), HostInput.reset ∉ inputs →
    Host.Core.run core inputs.length { State.built p with pending := inputs } = .next t →
    CleanEnd t → WholeFrames p.crcOrder t.tx

/-! ## Encodings -/

/-- 30_encoding.md R44, R50: decoding the word of a well-formed instruction gives it back, every operand at every value. -/
def Obligations.DecodeOfEncode : Prop :=
  ∀ i : Instr, i.wf = true → decode (encode i) = .instr i

/-- The other direction (30_encoding.md R43, R44, R46, R50): a word that decodes is the word of what it decodes to, which
is well-formed: no bit is dropped. THE MODEL'S READING (log entry 7, DEDUCED): the well-formedness clause, by which a head
with a listed COMMAND value, covered by two rows, is never answered with the generic row. -/
def Obligations.EncodeOfDecode : Prop :=
  ∀ (e : Encoded) (i : Instr), decode e = .instr i → i.wf = true ∧ encode i = e

/-- 30_encoding.md R44: `W` is the operation when `W AND mask = match`, for the six rows, with the operands in their
fields; the other values of `OP` decode to nothing; no two rows overlap. -/
def Obligations.OperationTableIsTheDecoder : Prop :=
  (∀ w : OpWord,
    (w &&& 0xFFFFFFFFFF = 0x0100000000 ↔ decodeOp w = .instr .crcInit) ∧
    (w &&& 0xFFFFFFFF00 = 0x0200000000 ↔ decodeOp w = .instr (.crcUpd (w.extractLsb' 0 8))) ∧
    (w &&& 0xFFFFFFFFFF = 0x0300000000 ↔ decodeOp w = .instr .crcRd) ∧
    (w &&& 0xFF00000000 = 0x1000000000 ↔
      decodeOp w = .instr (.frmStart (w.extractLsb' 24 8) (w.extractLsb' 16 8) (w.extractLsb' 0 16))) ∧
    (w &&& 0xFFFFFFFF00 = 0x1100000000 ↔ decodeOp w = .instr (.frmData (w.extractLsb' 0 8))) ∧
    (w &&& 0xFFFFFFFFFF = 0x2000000000 ↔ decodeOp w = .instr .statRd)) ∧
  (∀ (w : OpWord) (i : Instr), decodeOp w = .instr i → opField w ∈ [0x01, 0x02, 0x03, 0x10, 0x11, 0x20]) ∧
  opRows.Pairwise fun r q => ∀ w : OpWord, ¬ (r.covers w = true ∧ q.covers w = true)

/-- 30_encoding.md R50: a head is in the generic row exactly when it decodes, and in the row of a listed COMMAND value
exactly when it decodes to that value's row with its fields. -/
def Obligations.FrameTableIsTheDecoder : Prop :=
  ∀ h : FrameHead,
    (h &&& 0xFFFF0000FF000000 = 0xAA55000000000000 ↔ ∃ i, decodeFrameHead h = .instr i) ∧
    ∀ cmd ∈ listedCommands,
      ((commandRow cmd).covers h = true ↔
        decodeFrameHead h =
          .instr (frameRow (h.extractLsb' 40 8) (h.extractLsb' 32 8) cmd (h.extractLsb' 0 16)))

/-- Words of 95_test_vectors.md section 2.6 and heads of its section 2.7, written out from the encodings. -/
def Obligations.WordsOfTheSpecDecode : Prop :=
  decode (.op 0x0100000000) = .instr .crcInit ∧
  decode (.op 0x020000006C) = .instr (.crcUpd 0x6C) ∧
  decode (.op 0x0300000000) = .instr .crcRd ∧
  decode (.op 0x1064220001) = .instr (.frmStart 0x64 0x22 1) ∧
  decode (.op 0x10FFFFFFFF) = .instr (.frmStart 0xFF 0xFF 65535) ∧
  decode (.op 0x110000000B) = .instr (.frmData 0x0B) ∧
  decode (.op 0x2000000000) = .instr .statRd ∧
  decode (.frame 0xAA556C6400010000) = .instr (.frameQueryVersion 0x6C 0x64 0) ∧
  decode (.frame 0xAA556C64002700FF) = .instr (.frameLoadTempDisplay 0x6C 0x64 255) ∧
  decode (.frame 0xAA556CFF00FF0001) = .instr (.frame 0x6C 0xFF 0xFF 1)

/-! ## The port -/

/-- A step runs the decoded instruction: with a word waiting that decodes to `i`, the step is `exec i` on the block with
that input taken; this step adds nothing else around `exec`. A word that does not decode is refused with `IllegalOp`; a
reset event is the reset; with nothing waiting nothing changes (60_exceptions.md R116). -/
def Obligations.StepRunsTheDecodedInstruction : Prop :=
  ∀ (s : State) (e : Encoded) (rest : List HostInput),
    (∀ i, s.pending = .word e :: rest → decode e = .instr i → step s = exec i { s with pending := rest }) ∧
    (∀ why, s.pending = .word e :: rest → decode e = .illegal why →
      step s = .next (answered (.err .illegalOp) { s with pending := rest })) ∧
    (s.pending = .reset :: rest → step s = .next (resetEvent { s with pending := rest })) ∧
    (s.pending = [] → step s = .next s)

/-- 20_memory.md R32 (a): what the first operations do, and what they are answered, does not depend on what the host
issues after them. -/
def Obligations.LaterInputsDoNotMatter : Prop :=
  ∀ (xs ys : List HostInput) (s t : State), s.pending = xs → Host.Core.run core xs.length s = .next t →
    Host.Core.run core xs.length { s with pending := xs ++ ys } = .next { t with pending := ys }

/-- 60_exceptions.md R124: a step of one instance is that block's own step, and every other instance is as before. -/
def Obligations.InstancesShareNothing : Prop :=
  ∀ (k : Nat) (y z : System), y.stepAt k = .next z →
    z.blocks.length = y.blocks.length ∧
    (∀ j, j ≠ k → z.blocks[j]? = y.blocks[j]?) ∧
    ∀ s, y.blocks[k]? = some s → ∃ t, step s = .next t ∧ z.blocks[k]? = some t

/-! ## Whole frames -/

/-- 30_encoding.md R41: the field table of a frame, offset by offset, its length and its checksummed span. -/
def Obligations.FrameFieldTable : Prop :=
  ∀ (o : CrcOrder) (seq addr cmd : Byte) (p : List Byte), p.length ≤ 65535 →
    let f := frameBytes o seq addr cmd p
    let n := p.length
    let c := crc16 ((f.drop 2).take (6 + n))
    f.length = 11 + n ∧ f[0]? = some 0xAA ∧ f[1]? = some 0x55 ∧ f[2]? = some seq ∧ f[3]? = some addr ∧
    f[4]? = some 0x00 ∧ f[5]? = some cmd ∧ f[6]? = some (BitVec.ofNat 8 (n / 256)) ∧
    f[7]? = some (BitVec.ofNat 8 n) ∧ (∀ k, k < n → f[8 + k]? = p[k]?) ∧
    (o = .le → f[8 + n]? = some (lo8 c) ∧ f[9 + n]? = some (hi8 c)) ∧
    (o = .be → f[8 + n]? = some (hi8 c) ∧ f[9 + n]? = some (lo8 c)) ∧
    f[10 + n]? = some 0xAF

/-- 30_encoding.md R42: a frame of 30_encoding.md R40 is well-formed, every well-formed byte sequence is one, and a reader
that counts by LENGTH takes exactly it off the front of a stream, whatever follows. -/
def Obligations.ReaderRecoversFrames : Prop :=
  (∀ (o : CrcOrder) (seq addr cmd : Byte) (p rest : List Byte), p.length ≤ 65535 →
    wellFormedFrame o (frameBytes o seq addr cmd p) = true ∧
    readFrame (frameBytes o seq addr cmd p ++ rest) = some (frameBytes o seq addr cmd p, rest)) ∧
  ∀ (o : CrcOrder) (f : List Byte), wellFormedFrame o f = true →
    ∃ (seq addr cmd : Byte) (p : List Byte), p.length ≤ 65535 ∧ f = frameBytes o seq addr cmd p

/-- 41_frame.md R79: the net effect of `BUILD addr, cmd, p`. -/
def Obligations.BuildNetEffect : Prop :=
  ∀ (addr cmd : Byte) (p : List Byte) (s : State),
    (s.phase = .idle → p.length ≤ s.params.maxPayload.toNat →
      ∃ t, build addr cmd p s = .next (.ok, t) ∧
        t.tx = s.tx ++ frameBytes s.params.crcOrder s.seq addr cmd p ∧
        t.registers = (crc16 (body s.seq addr cmd p), s.seq + 1, Phase.idle, 0) ∧
        t.params = s.params ∧ t.pending = s.pending) ∧
    (s.phase = .idle → s.params.maxPayload.toNat < p.length →
      ∃ t, build addr cmd p s = .next (.err .payloadTooLarge, t) ∧ t.registers = s.registers ∧ t.tx = s.tx ∧
        t.params = s.params ∧ t.pending = s.pending) ∧
    (s.phase = .payload →
      ∃ t, build addr cmd p s = .next (.err .busy, t) ∧ t.registers = s.registers ∧ t.tx = s.tx ∧
        t.params = s.params ∧ t.pending = s.pending)

/-- 41_frame.md R79 at the port: the words of an accepted BUILD, presented to the block and stepped one by one, each
answered `ok`, append exactly the frame. -/
def Obligations.PortWordsOfBuildAppendTheFrame : Prop :=
  ∀ (addr cmd : Byte) (p : List Byte) (s : State) (rest : List HostInput), s.phase = .idle →
    p.length ≤ s.params.maxPayload.toNat → s.pending = portWords (buildInstrs addr cmd p) ++ rest →
    Host.Core.run core (p.length + 1) s = .next { s with
      crc := crc16 (body s.seq addr cmd p)
      seq := s.seq + 1
      phase := .idle
      rem := 0
      tx := s.tx ++ frameBytes s.params.crcOrder s.seq addr cmd p
      responses := s.responses ++ List.replicate (p.length + 1) .ok
      pending := rest }

/-- 70_reset_and_hazards.md R135, 41_frame.md R80: a frame in progress is completed by supplying the missing `REM` bytes,
whatever their values: each is accepted, `TX` then ends with one well-formed frame, of which what `TX`
ended with before is the beginning, and the block is idle again with the next sequence number. -/
def Obligations.MissingBytesCompleteTheFrame : Prop :=
  ∀ (s : State) (before q : List Byte), PhaseRemInv s → s.phase = .payload → OpenFrame before s →
    q.length = s.rem.toNat →
    ∃ (t : State) (f : List Byte), runInstrs (q.map .frmData) s = .next t ∧
      t.responses = s.responses ++ List.replicate q.length .ok ∧ t.phase = .idle ∧ t.rem = 0 ∧ t.seq = s.seq + 1 ∧
      t.tx = before ++ f ∧ wellFormedFrame s.params.crcOrder f = true ∧ (s.tx ++ q) <+: t.tx

/-- 41_frame.md R80: the bytes an accepted BUILD appends depend on `SEQ`, its operands and `CRC_ORDER` and on nothing
else: two blocks that agree on those append the same bytes. -/
def Obligations.BuildIsDeterministicInSeq : Prop :=
  ∀ (addr cmd : Byte) (p : List Byte) (s s' : State), s.phase = .idle → s'.phase = .idle →
    p.length ≤ s.params.maxPayload.toNat → p.length ≤ s'.params.maxPayload.toNat →
    s'.seq = s.seq → s'.params.crcOrder = s.params.crcOrder →
    ∃ (t t' : State) (out : List Byte), build addr cmd p s = .next (.ok, t) ∧ build addr cmd p s' = .next (.ok, t') ∧
      t.tx = s.tx ++ out ∧ t'.tx = s'.tx ++ out

/-- 41_frame.md R81: of consecutive BUILDs, those within `MAX_PAYLOAD` append their frames in order, the j-th of them
(from 0) with SEQ byte `v + j` modulo 256; refused ones do not count; after 256 accepted ones the counter is at `v`
again. -/
def Obligations.SequenceNumbersCount : Prop :=
  ∀ (qs : List BuildRequest) (s : State), s.phase = .idle →
    let accepted := qs.filter fun q => q.payload.length ≤ s.params.maxPayload.toNat
    ∃ t, buildAll qs s = .next t ∧ t.phase = .idle ∧
      t.tx = s.tx ++ (accepted.mapIdx fun j q =>
        frameBytes s.params.crcOrder (BitVec.ofNat 8 (s.seq.toNat + j)) q.addr q.cmd q.payload).flatten ∧
      t.seq = BitVec.ofNat 8 (s.seq.toNat + accepted.length) ∧
      (accepted.length = 256 → t.seq = s.seq)
end

