-- ==== Sys2Proof/Laws/Encoding.lean ====
section
/-!
SUPPORT. Sys2Proof/Laws/Encoding.lean: the fields of a word built from fields, and the word built from its fields.
-/
namespace Sys2Proof

theorem append_toNat {m n : Nat} (x : BitVec m) (y : BitVec n) :
    (x ++ y).toNat = x.toNat * 2 ^ n + y.toNat := by
  rw [BitVec.toNat_append, Nat.shiftLeft_eq, ← Nat.shiftLeft_eq, ← Nat.shiftLeft_add_eq_or_of_lt y.isLt]

theorem extract_toNat {n : Nat} (x : BitVec n) (start len : Nat) :
    (x.extractLsb' start len).toNat = x.toNat / 2 ^ start % 2 ^ len := by
  simp [Nat.shiftRight_eq_div_pow]

/-! ## Operation words (30_encoding.md R43) -/

section
variable (op a b : Byte) (c : Word16)

theorem opWord_toNat :
    (opWord op a b c).toNat = op.toNat * 2 ^ 32 + a.toNat * 2 ^ 24 + b.toNat * 2 ^ 16 + c.toNat := by
  unfold opWord
  rw [append_toNat, append_toNat, append_toNat]
  omega

@[simp] theorem opField_opWord : opField (opWord op a b c) = op := by
  apply BitVec.eq_of_toNat_eq
  rw [opField, extract_toNat, opWord_toNat]
  omega

@[simp] theorem aField_opWord : aField (opWord op a b c) = a := by
  apply BitVec.eq_of_toNat_eq
  rw [aField, extract_toNat, opWord_toNat]
  omega

@[simp] theorem bField_opWord : bField (opWord op a b c) = b := by
  apply BitVec.eq_of_toNat_eq
  rw [bField, extract_toNat, opWord_toNat]
  omega

@[simp] theorem cField_opWord : cField (opWord op a b c) = c := by
  apply BitVec.eq_of_toNat_eq
  rw [cField, extract_toNat, opWord_toNat]
  omega

theorem dataC_toNat : (dataC b).toNat = b.toNat := by
  unfold dataC
  rw [append_toNat]
  simp

@[simp] theorem dataField_opWord : dataField (opWord op a b (dataC b)) = b := by
  apply BitVec.eq_of_toNat_eq
  rw [dataField, extract_toNat, opWord_toNat, dataC_toNat]
  omega

theorem dataField_dataC (d : Byte) : dataField (opWord op a b (dataC d)) = d := by
  apply BitVec.eq_of_toNat_eq
  rw [dataField, extract_toNat, opWord_toNat, dataC_toNat]
  omega

theorem dataHighField_dataC (d : Byte) : dataHighField (opWord op a b (dataC d)) = 0 := by
  apply BitVec.eq_of_toNat_eq
  rw [dataHighField, extract_toNat, opWord_toNat, dataC_toNat, show (0 : Byte).toNat = 0 from rfl]
  omega

theorem opWord_and (op' a' b' : Byte) (c' : Word16) :
    opWord op a b c &&& opWord op' a' b' c' = opWord (op &&& op') (a &&& a') (b &&& b') (c &&& c') := by
  unfold opWord
  rw [← BitVec.and_append, ← BitVec.and_append, ← BitVec.and_append]

end

/-- A word is the word of its fields. -/
theorem opWord_fields (w : OpWord) : opWord (opField w) (aField w) (bField w) (cField w) = w := by
  apply BitVec.eq_of_toNat_eq
  rw [opWord_toNat, opField, aField, bField, cField, extract_toNat, extract_toNat, extract_toNat, extract_toNat]
  omega

/-- `C` is `C[15:8]` and the data byte. -/
theorem cField_eq (w : OpWord) : cField w = dataHighField w ++ dataField w := by
  apply BitVec.eq_of_toNat_eq
  rw [append_toNat, cField, dataHighField, dataField, extract_toNat, extract_toNat, extract_toNat]
  omega

/-! ## Frame heads (30_encoding.md R41, R50) -/

section
variable (seq addr cmd : Byte) (len : Word16)

theorem frameHead_toNat :
    (frameHead seq addr cmd len).toNat =
      0xAA55 * 2 ^ 48 + seq.toNat * 2 ^ 40 + addr.toNat * 2 ^ 32 + cmd.toNat * 2 ^ 16 + len.toNat := by
  unfold frameHead headWord
  rw [append_toNat, append_toNat, append_toNat, append_toNat, append_toNat, show (0xAA55 : Word16).toNat = 0xAA55 from rfl,
    show (0 : Byte).toNat = 0 from rfl]
  omega

@[simp] theorem headerField_frameHead : headerField (frameHead seq addr cmd len) = 0xAA55 := by
  apply BitVec.eq_of_toNat_eq
  rw [headerField, extract_toNat, frameHead_toNat, show (0xAA55 : Word16).toNat = 0xAA55 from rfl]
  omega

@[simp] theorem seqField_frameHead : seqField (frameHead seq addr cmd len) = seq := by
  apply BitVec.eq_of_toNat_eq
  rw [seqField, extract_toNat, frameHead_toNat]
  omega

@[simp] theorem addressField_frameHead : addressField (frameHead seq addr cmd len) = addr := by
  apply BitVec.eq_of_toNat_eq
  rw [addressField, extract_toNat, frameHead_toNat]
  omega

@[simp] theorem reservedField_frameHead : reservedField (frameHead seq addr cmd len) = 0 := by
  apply BitVec.eq_of_toNat_eq
  rw [reservedField, extract_toNat, frameHead_toNat, show (0 : Byte).toNat = 0 from rfl]
  omega

@[simp] theorem commandField_frameHead : commandField (frameHead seq addr cmd len) = cmd := by
  apply BitVec.eq_of_toNat_eq
  rw [commandField, extract_toNat, frameHead_toNat]
  omega

@[simp] theorem lengthField_frameHead : lengthField (frameHead seq addr cmd len) = len := by
  apply BitVec.eq_of_toNat_eq
  rw [lengthField, extract_toNat, frameHead_toNat]
  omega

theorem headWord_and (header header' : Word16) (seq' addr' reserved reserved' cmd' : Byte) (len' : Word16) :
    headWord header seq addr reserved cmd len &&& headWord header' seq' addr' reserved' cmd' len' =
      headWord (header &&& header') (seq &&& seq') (addr &&& addr') (reserved &&& reserved') (cmd &&& cmd')
        (len &&& len') := by
  unfold headWord
  rw [← BitVec.and_append, ← BitVec.and_append, ← BitVec.and_append, ← BitVec.and_append, ← BitVec.and_append]

theorem commandRow_pattern : (commandRow cmd).pattern = frameHead 0 0 cmd 0 := by
  revert cmd
  decide +kernel

theorem commandRow_mask : (commandRow cmd).mask = headWord 0xFFFF 0 0 0xFF 0xFF 0 := by
  show (0xFFFF0000FFFF0000 : BitVec 64) = _
  decide

/-- Selecting HEADER, RESERVED and COMMAND of a head leaves the pattern of its command's row. -/
theorem commandRow_frameHead : (commandRow cmd).covers (frameHead seq addr cmd len) = true := by
  rw [MatchMask.covers, commandRow_pattern, commandRow_mask, frameHead, headWord_and]
  simp [frameHead, show cmd &&& 255#8 = cmd from BitVec.and_allOnes]

/-- Selecting HEADER and RESERVED of a head leaves the pattern of the generic row. -/
theorem genericFrameRow_frameHead : genericFrameRow.covers (frameHead seq addr cmd len) = true := by
  rw [MatchMask.covers, show genericFrameRow.mask = headWord 0xFFFF 0 0 0xFF 0 0 by decide,
    show genericFrameRow.pattern = frameHead 0 0 0 0 by decide, frameHead, headWord_and]
  simp [frameHead]

end

/-- A head is its fields, the header and the RESERVED byte among them. -/
theorem frameHead_fields {h : FrameHead} (hh : headerField h = 0xAA55) (hr : reservedField h = 0) :
    frameHead (seqField h) (addressField h) (commandField h) (lengthField h) = h := by
  have hh' := congrArg BitVec.toNat hh
  have hr' := congrArg BitVec.toNat hr
  rw [headerField, extract_toNat, show (0xAA55 : Word16).toNat = 0xAA55 from rfl] at hh'
  rw [reservedField, extract_toNat, show (0 : Byte).toNat = 0 from rfl] at hr'
  apply BitVec.eq_of_toNat_eq
  rw [frameHead_toNat, seqField, addressField, commandField, lengthField, extract_toNat, extract_toNat, extract_toNat,
    extract_toNat]
  omega

/-! ## The rows of a COMMAND value -/

theorem encode_ite {p : Prop} [Decidable p] {i j : Instr} {e : Encoded} (hi : p → encode i = e) (hj : encode j = e) :
    encode (if p then i else j) = e := by
  by_cases h : p
  · rw [if_pos h, hi h]
  · rw [if_neg h, hj]

/-- Encoding the row of a head gives the head back. -/
theorem encode_frameRow (seq addr cmd : Byte) (len : Word16) :
    encode (frameRow seq addr cmd len) = .frame (frameHead seq addr cmd len) := by
  unfold frameRow
  iterate 12 refine encode_ite (fun h => by rw [h, encode]) ?_
  rw [encode]

end Sys2Proof
end

