-- ==== Sys2Proof/Laws/State.lean ====
section
/-!
SUPPORT. Sys2Proof/Laws/State.lean: one lemma per field per update, so that no later proof unfolds a record update.
-/
namespace Sys2Proof.Machine

variable (s : State)

@[simp] theorem State.setCrc_crc (v : Word16) : (s.setCrc v).crc = v := rfl
@[simp] theorem State.setCrc_seq (v : Word16) : (s.setCrc v).seq = s.seq := rfl
@[simp] theorem State.setCrc_phase (v : Word16) : (s.setCrc v).phase = s.phase := rfl
@[simp] theorem State.setCrc_rem (v : Word16) : (s.setCrc v).rem = s.rem := rfl
@[simp] theorem State.setCrc_tx (v : Word16) : (s.setCrc v).tx = s.tx := rfl
@[simp] theorem State.setCrc_responses (v : Word16) : (s.setCrc v).responses = s.responses := rfl
@[simp] theorem State.setCrc_pending (v : Word16) : (s.setCrc v).pending = s.pending := rfl
@[simp] theorem State.setCrc_params (v : Word16) : (s.setCrc v).params = s.params := rfl

@[simp] theorem State.setSeq_crc (v : Byte) : (s.setSeq v).crc = s.crc := rfl
@[simp] theorem State.setSeq_seq (v : Byte) : (s.setSeq v).seq = v := rfl
@[simp] theorem State.setSeq_phase (v : Byte) : (s.setSeq v).phase = s.phase := rfl
@[simp] theorem State.setSeq_rem (v : Byte) : (s.setSeq v).rem = s.rem := rfl
@[simp] theorem State.setSeq_tx (v : Byte) : (s.setSeq v).tx = s.tx := rfl
@[simp] theorem State.setSeq_responses (v : Byte) : (s.setSeq v).responses = s.responses := rfl
@[simp] theorem State.setSeq_pending (v : Byte) : (s.setSeq v).pending = s.pending := rfl
@[simp] theorem State.setSeq_params (v : Byte) : (s.setSeq v).params = s.params := rfl

@[simp] theorem State.setPhase_crc (v : Phase) : (s.setPhase v).crc = s.crc := rfl
@[simp] theorem State.setPhase_seq (v : Phase) : (s.setPhase v).seq = s.seq := rfl
@[simp] theorem State.setPhase_phase (v : Phase) : (s.setPhase v).phase = v := rfl
@[simp] theorem State.setPhase_rem (v : Phase) : (s.setPhase v).rem = s.rem := rfl
@[simp] theorem State.setPhase_tx (v : Phase) : (s.setPhase v).tx = s.tx := rfl
@[simp] theorem State.setPhase_responses (v : Phase) : (s.setPhase v).responses = s.responses := rfl
@[simp] theorem State.setPhase_pending (v : Phase) : (s.setPhase v).pending = s.pending := rfl
@[simp] theorem State.setPhase_params (v : Phase) : (s.setPhase v).params = s.params := rfl

@[simp] theorem State.setRem_crc (v : Word16) : (s.setRem v).crc = s.crc := rfl
@[simp] theorem State.setRem_seq (v : Word16) : (s.setRem v).seq = s.seq := rfl
@[simp] theorem State.setRem_phase (v : Word16) : (s.setRem v).phase = s.phase := rfl
@[simp] theorem State.setRem_rem (v : Word16) : (s.setRem v).rem = v := rfl
@[simp] theorem State.setRem_tx (v : Word16) : (s.setRem v).tx = s.tx := rfl
@[simp] theorem State.setRem_responses (v : Word16) : (s.setRem v).responses = s.responses := rfl
@[simp] theorem State.setRem_pending (v : Word16) : (s.setRem v).pending = s.pending := rfl
@[simp] theorem State.setRem_params (v : Word16) : (s.setRem v).params = s.params := rfl

@[simp] theorem State.emit_crc (bs : List Byte) : (s.emit bs).crc = s.crc := rfl
@[simp] theorem State.emit_seq (bs : List Byte) : (s.emit bs).seq = s.seq := rfl
@[simp] theorem State.emit_phase (bs : List Byte) : (s.emit bs).phase = s.phase := rfl
@[simp] theorem State.emit_rem (bs : List Byte) : (s.emit bs).rem = s.rem := rfl
@[simp] theorem State.emit_tx (bs : List Byte) : (s.emit bs).tx = s.tx ++ bs := rfl
@[simp] theorem State.emit_responses (bs : List Byte) : (s.emit bs).responses = s.responses := rfl
@[simp] theorem State.emit_pending (bs : List Byte) : (s.emit bs).pending = s.pending := rfl
@[simp] theorem State.emit_params (bs : List Byte) : (s.emit bs).params = s.params := rfl

@[simp] theorem State.respond_crc (r : Response) : (s.respond r).crc = s.crc := rfl
@[simp] theorem State.respond_seq (r : Response) : (s.respond r).seq = s.seq := rfl
@[simp] theorem State.respond_phase (r : Response) : (s.respond r).phase = s.phase := rfl
@[simp] theorem State.respond_rem (r : Response) : (s.respond r).rem = s.rem := rfl
@[simp] theorem State.respond_tx (r : Response) : (s.respond r).tx = s.tx := rfl
@[simp] theorem State.respond_responses (r : Response) : (s.respond r).responses = s.responses ++ [r] := rfl
@[simp] theorem State.respond_pending (r : Response) : (s.respond r).pending = s.pending := rfl
@[simp] theorem State.respond_params (r : Response) : (s.respond r).params = s.params := rfl

@[simp] theorem State.raise_crc (e : ErrorCode) : (s.raise e).crc = s.crc := rfl
@[simp] theorem State.raise_seq (e : ErrorCode) : (s.raise e).seq = s.seq := rfl
@[simp] theorem State.raise_phase (e : ErrorCode) : (s.raise e).phase = s.phase := rfl
@[simp] theorem State.raise_rem (e : ErrorCode) : (s.raise e).rem = s.rem := rfl
@[simp] theorem State.raise_tx (e : ErrorCode) : (s.raise e).tx = s.tx := rfl
@[simp] theorem State.raise_responses (e : ErrorCode) : (s.raise e).responses = s.responses ++ [.err e] := rfl
@[simp] theorem State.raise_pending (e : ErrorCode) : (s.raise e).pending = s.pending := rfl
@[simp] theorem State.raise_params (e : ErrorCode) : (s.raise e).params = s.params := rfl


@[simp] theorem State.presentFirst_crc (x : HostInput) : (s.presentFirst x).crc = s.crc := rfl
@[simp] theorem State.presentFirst_seq (x : HostInput) : (s.presentFirst x).seq = s.seq := rfl
@[simp] theorem State.presentFirst_phase (x : HostInput) : (s.presentFirst x).phase = s.phase := rfl
@[simp] theorem State.presentFirst_rem (x : HostInput) : (s.presentFirst x).rem = s.rem := rfl
@[simp] theorem State.presentFirst_tx (x : HostInput) : (s.presentFirst x).tx = s.tx := rfl
@[simp] theorem State.presentFirst_responses (x : HostInput) : (s.presentFirst x).responses = s.responses := rfl
@[simp] theorem State.presentFirst_pending (x : HostInput) : (s.presentFirst x).pending = x :: s.pending := rfl
@[simp] theorem State.presentFirst_params (x : HostInput) : (s.presentFirst x).params = s.params := rfl

@[simp] theorem State.built_crc (p : Params) : (State.built p).crc = Config.crcInit := rfl
@[simp] theorem State.built_seq (p : Params) : (State.built p).seq = p.seqInit := rfl
@[simp] theorem State.built_phase (p : Params) : (State.built p).phase = .idle := rfl
@[simp] theorem State.built_rem (p : Params) : (State.built p).rem = 0 := rfl
@[simp] theorem State.built_tx (p : Params) : (State.built p).tx = [] := rfl
@[simp] theorem State.built_responses (p : Params) : (State.built p).responses = [] := rfl
@[simp] theorem State.built_pending (p : Params) : (State.built p).pending = [] := rfl
@[simp] theorem State.built_params (p : Params) : (State.built p).params = p := rfl

end Sys2Proof.Machine
end

