-- ==== Sys2Proof/Laws/Ops.lean ====
section
/-!
SUPPORT. Sys2Proof/Laws/Ops.lean: for each shared operation of Machine/Ops.lean, once, everything it does.
-/
namespace Sys2Proof.Machine

/-! ## The checksum over a sequence -/

@[simp] theorem crcFrom_nil (c : Word16) : crcFrom c [] = c := rfl

@[simp] theorem crcFrom_cons (c : Word16) (b : Byte) (bs : List Byte) :
    crcFrom c (b :: bs) = crcFrom (crcStep c b) bs := rfl

theorem crcFrom_append (c : Word16) (xs ys : List Byte) : crcFrom c (xs ++ ys) = crcFrom (crcFrom c xs) ys := by
  simp [crcFrom]

theorem crcFrom_crc16 (xs ys : List Byte) : crcFrom (crc16 xs) ys = crc16 (xs ++ ys) :=
  (crcFrom_append _ xs ys).symm

/-! ## Emitting and completing -/

theorem emitSummed_eq (bs : List Byte) (s : State) :
    s.emitSummed bs = { s with crc := crcFrom s.crc bs, tx := s.tx ++ bs } := by
  induction bs generalizing s with
  | nil => simp [State.emitSummed]
  | cons b bs ih => simp [State.emitSummed, ih, State.emit, State.setCrc]

theorem completeFrame_eq (s : State) :
    completeFrame s = { s with
      seq := s.seq + 1, phase := .idle, rem := 0
      tx := s.tx ++ (crcBytes s.params.crcOrder s.crc ++ [Config.terminator]) } := by
  simp [completeFrame, State.emit, State.setSeq, State.setPhase, State.setRem]

theorem openFrame_eq (addr cmd : Byte) (len : Word16) (s : State) :
    openFrame addr cmd len s = { s with
      crc := crc16 (countedBytes s.seq addr cmd len), rem := len
      tx := s.tx ++ (Config.header ++ countedBytes s.seq addr cmd len) } := by
  simp [openFrame, emitSummed_eq, State.emit, State.setCrc, State.setRem, crc16]

theorem takeByte_eq (b : Byte) (s : State) :
    takeByte b s = { s with crc := crcStep s.crc b, rem := s.rem - 1, tx := s.tx ++ [b] } := by
  simp [takeByte, emitSummed_eq, State.setRem]

theorem resetEvent_eq (s : State) :
    resetEvent s = { s with crc := Config.crcInit, seq := s.params.seqInit, phase := .idle, rem := 0 } := rfl

/-! ## The two assembler operations: what each can do -/

theorem startFrame_cases (addr cmd : Byte) (len : Word16) (s : State) :
    (s.phase = .payload ∧ startFrame addr cmd len s = s.raise .busy) ∨
    (s.phase = .idle ∧ s.params.maxPayload < len ∧ startFrame addr cmd len s = s.raise .payloadTooLarge) ∨
    (s.phase = .idle ∧ len ≤ s.params.maxPayload ∧ len = 0 ∧
      startFrame addr cmd len s = (completeFrame (openFrame addr cmd len s)).respond .ok) ∨
    (s.phase = .idle ∧ len ≤ s.params.maxPayload ∧ len ≠ 0 ∧
      startFrame addr cmd len s = ((openFrame addr cmd len s).setPhase .payload).respond .ok) := by
  have h : ¬ s.params.maxPayload < len → len ≤ s.params.maxPayload := BitVec.not_lt.mp
  cases hp : s.phase <;> by_cases hl : s.params.maxPayload < len <;> by_cases hz : len = 0 <;>
    simp_all [startFrame]

theorem supplyByte_cases (b : Byte) (s : State) :
    (s.phase = .idle ∧ supplyByte b s = s.raise .notInFrame) ∨
    (s.phase = .payload ∧ s.rem = 1 ∧ supplyByte b s = (completeFrame (takeByte b s)).respond .ok) ∨
    (s.phase = .payload ∧ s.rem ≠ 1 ∧ supplyByte b s = (takeByte b s).respond .ok) := by
  have h : s.rem - 1 = 0 ↔ s.rem = 1 := by bv_omega
  cases hp : s.phase <;> by_cases hr : s.rem = 1 <;> simp_all [supplyByte, takeByte_eq]

end Sys2Proof.Machine
end

