-- ==== Sys2Proof/Laws/Exec.lean ====
section
/-!
SUPPORT. Sys2Proof/Laws/Exec.lean: what an instruction and a step can do, said once: the instructions fall into the six
operations (a frame row is the request for its frame), and a step either idles, resets, refuses an illegal word or runs
the decoded instruction.
-/
namespace Sys2Proof.Machine

/-- Every instruction that asks for a frame is FRM.START of that frame. -/
theorem exec_of_request {i : Instr} {addr cmd : Byte} {len : Word16} (s : State)
    (h : frameRequest i = some (addr, cmd, len)) : exec i s = .next (startFrame addr cmd len s) := by
  cases i <;> simp_all [frameRequest, exec, execFrmStart, requestFrame, execFrame, execFrameQueryVersion,
    execFrameSetTime, execFrameCancelTempDisplay, execFramePlayVoice, execFrameLoadAd, execFrameLoadAdColor,
    execFrameLoadTempDisplay, execFrameLoadTempDisplayColorAlt, execFrameLoadQrcode, execFrameSmallScreenAllLines,
    execFrameCacheVoice, execFrameSetVolume]

/-- What `exec` can do. -/
theorem exec_cases (i : Instr) (s : State) :
    (i = .crcInit ∧ exec i s = execCrcInit s) ∨
    (∃ b, i = .crcUpd b ∧ exec i s = execCrcUpd b s) ∨
    (i = .crcRd ∧ exec i s = execCrcRd s) ∨
    (i = .statRd ∧ exec i s = execStatRd s) ∨
    (∃ b, i = .frmData b ∧ exec i s = .next (supplyByte b s)) ∨
    (∃ addr cmd len, frameRequest i = some (addr, cmd, len) ∧ exec i s = .next (startFrame addr cmd len s)) := by
  cases i
  case crcInit => exact .inl ⟨rfl, rfl⟩
  case crcUpd b => exact .inr (.inl ⟨b, rfl, rfl⟩)
  case crcRd => exact .inr (.inr (.inl ⟨rfl, rfl⟩))
  case statRd => exact .inr (.inr (.inr (.inl ⟨rfl, rfl⟩)))
  case frmData b => exact .inr (.inr (.inr (.inr (.inl ⟨b, rfl, rfl⟩))))
  all_goals exact .inr (.inr (.inr (.inr (.inr ⟨_, _, _, rfl, exec_of_request s rfl⟩))))

/-- Every instruction answers a next state, with one response more, taking no input and leaving the parameters alone. -/
theorem exec_answers (i : Instr) (s : State) :
    ∃ t r, exec i s = .next t ∧ t.responses = s.responses ++ [r] ∧ t.pending = s.pending ∧ t.params = s.params := by
  rcases exec_cases i s with ⟨-, e⟩ | ⟨b, -, e⟩ | ⟨-, e⟩ | ⟨-, e⟩ | ⟨b, -, e⟩ | ⟨addr, cmd, len, -, e⟩
  · refine ⟨_, if s.phase = .payload then .err .busy else .ok, e, ?_⟩
    split <;> simp
  · refine ⟨_, if s.phase = .payload then .err .busy else .ok, e, ?_⟩
    split <;> simp
  · exact ⟨_, _, e, rfl, rfl, rfl⟩
  · exact ⟨_, _, e, rfl, rfl, rfl⟩
  · rcases supplyByte_cases b s with ⟨-, h⟩ | ⟨-, -, h⟩ | ⟨-, -, h⟩ <;> rw [h] at e
    · exact ⟨_, _, e, rfl, rfl, rfl⟩
    · exact ⟨_, .ok, e, by simp [completeFrame_eq, takeByte_eq]⟩
    · exact ⟨_, .ok, e, by simp [takeByte_eq]⟩
  · rcases startFrame_cases addr cmd len s with ⟨-, h⟩ | ⟨-, -, h⟩ | ⟨-, -, -, h⟩ | ⟨-, -, -, h⟩ <;> rw [h] at e
    · exact ⟨_, _, e, rfl, rfl, rfl⟩
    · exact ⟨_, _, e, rfl, rfl, rfl⟩
    · exact ⟨_, .ok, e, by simp [completeFrame_eq, openFrame_eq]⟩
    · exact ⟨_, .ok, e, by simp [openFrame_eq]⟩

/-- What an instruction does, and what it is answered, does not depend on the inputs still waiting. -/
theorem exec_withPending {i : Instr} {s t : State} (q : List HostInput) (h : exec i s = .next t) :
    exec i { s with pending := q } = .next { t with pending := q } := by
  rcases exec_cases i s with ⟨rfl, e⟩ | ⟨b, rfl, e⟩ | ⟨rfl, e⟩ | ⟨rfl, e⟩ | ⟨b, rfl, e⟩ | ⟨addr, cmd, len, hr, e⟩ <;>
    rw [e] at h <;> cases h
  · show Host.Outcome.next (ite _ _ _) = _
    split <;> rfl
  · show Host.Outcome.next (ite _ _ _) = _
    split <;> rfl
  · rfl
  · rfl
  · show Host.Outcome.next (supplyByte _ _) = _
    simp only [supplyByte, takeByte_eq, completeFrame_eq]
    split
    · rfl
    · split <;> rfl
  · rw [exec_of_request _ hr]
    simp only [startFrame, openFrame_eq, completeFrame_eq]
    split
    · rfl
    · split
      · rfl
      · split <;> rfl

/-- What `step` can do. -/
theorem step_cases {s t : State} (h : step s = .next t) :
    (s.pending = [] ∧ t = s) ∨
    (∃ rest, s.pending = .reset :: rest ∧ t = resetEvent { s with pending := rest }) ∨
    (∃ e rest why, s.pending = .word e :: rest ∧ decode e = .illegal why ∧
      t = State.raise .illegalOp { s with pending := rest }) ∨
    (∃ e rest i, s.pending = .word e :: rest ∧ decode e = .instr i ∧
      exec i { s with pending := rest } = .next t) := by
  cases hp : s.pending with
  | nil => simp_all [step, takeInput]
  | cons x rest =>
    cases x with
    | reset => simp_all [step, takeInput]
    | word e =>
      cases hd : decode e <;> simp_all [step, takeInput, runWord]

/-- One step of a run. -/
theorem run_succ {k : Nat} {s t : State} (h : step s = .next t) :
    Host.Core.run core (k + 1) s = Host.Core.run core k t := by
  have h' : core.step s = .next t := h
  simp only [Host.Core.run, h']

@[simp] theorem run_zero (s : State) : Host.Core.run core 0 s = .next s := rfl

end Sys2Proof.Machine
end

