-- ==== Sys2Proof/Laws/Operands.lean ====
section
/-!
SUPPORT. Sys2Proof/Laws/Operands.lean: the two halves of a 16-bit value and the lengths of the parts of a frame.
-/
namespace Sys2Proof.Machine

theorem hi8_toNat (w : Word16) : (hi8 w).toNat = w.toNat / 256 := by
  rw [hi8, extract_toNat]
  omega

theorem lo8_toNat (w : Word16) : (lo8 w).toNat = w.toNat % 256 := by
  rw [lo8, extract_toNat]
  omega

@[simp] theorem hi8_zero : hi8 0#16 = 0#8 := rfl

@[simp] theorem lo8_zero : lo8 0#16 = 0#8 := rfl

/-- A value is its two halves. -/
theorem hi8_append_lo8 (w : Word16) : hi8 w ++ lo8 w = w := by
  apply BitVec.eq_of_toNat_eq
  rw [append_toNat, hi8_toNat, lo8_toNat]
  omega

/-- The LENGTH field read back by a reader (30_encoding.md R42). -/
theorem bigEndian16_halves (w : Word16) : bigEndian16 (hi8 w) (lo8 w) = w.toNat := by
  rw [bigEndian16, hi8_toNat, lo8_toNat]
  omega

@[simp] theorem hi8_append (h l : Byte) : hi8 (h ++ l) = h := by
  apply BitVec.eq_of_toNat_eq
  rw [hi8_toNat, append_toNat]
  omega

@[simp] theorem lo8_append (h l : Byte) : lo8 (h ++ l) = l := by
  apply BitVec.eq_of_toNat_eq
  rw [lo8_toNat, append_toNat]
  omega

theorem hi8_xor (a b : Word16) : hi8 (a ^^^ b) = hi8 a ^^^ hi8 b := by
  apply BitVec.eq_of_getLsbD_eq
  intro i hi
  simp [hi8, hi]

theorem lo8_xor (a b : Word16) : lo8 (a ^^^ b) = lo8 a ^^^ lo8 b := by
  apply BitVec.eq_of_getLsbD_eq
  intro i hi
  simp [lo8, hi]

/-- Two values with equal halves are equal. -/
theorem eq_of_halves {a b : Word16} (hh : hi8 a = hi8 b) (hl : lo8 a = lo8 b) : a = b := by
  rw [← hi8_append_lo8 a, ← hi8_append_lo8 b, hh, hl]

/-- A byte enters the CRC in the low half (40_crc.md R61). -/
@[simp] theorem hi8_zeroExtend (b : Byte) : hi8 (b.zeroExtend 16) = 0 := by
  apply BitVec.eq_of_toNat_eq
  rw [hi8_toNat, BitVec.toNat_setWidth]
  have := b.isLt
  simp
  omega

@[simp] theorem lo8_zeroExtend (b : Byte) : lo8 (b.zeroExtend 16) = b := by
  apply BitVec.eq_of_toNat_eq
  rw [lo8_toNat, BitVec.toNat_setWidth]
  omega

@[simp] theorem countedBytes_length (seq addr cmd : Byte) (len : Word16) :
    (countedBytes seq addr cmd len).length = 6 := rfl

@[simp] theorem crcBytes_length (o : CrcOrder) (c : Word16) : (crcBytes o c).length = 2 := by
  cases o <;> rfl

/-- A frame has 11 bytes more than its payload (30_encoding.md R41). -/
theorem frameBytes_length (o : CrcOrder) (seq addr cmd : Byte) (p : List Byte) :
    (frameBytes o seq addr cmd p).length = 11 + p.length := by
  simp [frameBytes, body, Config.header]
  omega

end Sys2Proof.Machine
end

