-- ==== Sys2Proof/Laws/PerInstr.lean ====
section
/-!
SUPPORT. Sys2Proof/Laws/PerInstr.lean: the family TableRow: the word of an instruction lies in its own row of
spec/opcode_table.json (30_encoding.md R44, R50).
-/
namespace Sys2Proof.Laws.TableRow

open Sys2Proof

/-- The encoding of `i` is of its row's format, and its bits under the row's mask are the row's match. -/
def Statement (i : Instr) : Prop := (tableRow i).covers (encode i) = true

/-- An operation row whose mask keeps all of `OP`, `A`, `B` and the bits `mc` of `C`. -/
theorem covers_op {r : MatchMask 40} {op a b : Byte} {c : Word16} {mo ma mb : Byte} {mc : Word16}
    (hm : r.mask = opWord mo ma mb mc) (hp : r.pattern = opWord (op &&& mo) (a &&& ma) (b &&& mb) (c &&& mc)) :
    r.covers (opWord op a b c) = true := by
  rw [MatchMask.covers, hm, hp, opWord_and, beq_self_eq_true]

theorem dataC_masked (b : Byte) : dataC b &&& 0xFF00 = 0 := by
  revert b
  decide

theorem crcInit : Statement .crcInit := by
  unfold Statement
  decide

theorem crcUpd (b : Byte) : Statement (.crcUpd b) :=
  covers_op (mo := 0xFF) (ma := 0xFF) (mb := 0xFF) (mc := 0xFF00) (by decide) (by rw [dataC_masked]; decide)

theorem crcRd : Statement .crcRd := by
  unfold Statement
  decide

theorem frmStart (addr cmd : Byte) (len : Word16) : Statement (.frmStart addr cmd len) :=
  covers_op (mo := 0xFF) (ma := 0) (mb := 0) (mc := 0) (by decide) (by simp [opFrmStart]; decide)

theorem frmData (b : Byte) : Statement (.frmData b) :=
  covers_op (mo := 0xFF) (ma := 0xFF) (mb := 0xFF) (mc := 0xFF00) (by decide) (by rw [dataC_masked]; decide)

theorem statRd : Statement .statRd := by
  unfold Statement
  decide

theorem frame (seq addr cmd : Byte) (len : Word16) : Statement (.frame seq addr cmd len) :=
  genericFrameRow_frameHead seq addr cmd len

theorem frameQueryVersion (seq addr : Byte) (len : Word16) : Statement (.frameQueryVersion seq addr len) :=
  commandRow_frameHead seq addr _ len

theorem frameSetTime (seq addr : Byte) (len : Word16) : Statement (.frameSetTime seq addr len) :=
  commandRow_frameHead seq addr _ len

theorem frameCancelTempDisplay (seq addr : Byte) (len : Word16) : Statement (.frameCancelTempDisplay seq addr len) :=
  commandRow_frameHead seq addr _ len

theorem framePlayVoice (seq addr : Byte) (len : Word16) : Statement (.framePlayVoice seq addr len) :=
  commandRow_frameHead seq addr _ len

theorem frameLoadAd (seq addr : Byte) (len : Word16) : Statement (.frameLoadAd seq addr len) :=
  commandRow_frameHead seq addr _ len

theorem frameLoadAdColor (seq addr : Byte) (len : Word16) : Statement (.frameLoadAdColor seq addr len) :=
  commandRow_frameHead seq addr _ len

theorem frameLoadTempDisplay (seq addr : Byte) (len : Word16) : Statement (.frameLoadTempDisplay seq addr len) :=
  commandRow_frameHead seq addr _ len

theorem frameLoadTempDisplayColorAlt (seq addr : Byte) (len : Word16) : Statement (.frameLoadTempDisplayColorAlt seq addr len) :=
  commandRow_frameHead seq addr _ len

theorem frameLoadQrcode (seq addr : Byte) (len : Word16) : Statement (.frameLoadQrcode seq addr len) :=
  commandRow_frameHead seq addr _ len

theorem frameSmallScreenAllLines (seq addr : Byte) (len : Word16) : Statement (.frameSmallScreenAllLines seq addr len) :=
  commandRow_frameHead seq addr _ len

theorem frameCacheVoice (seq addr : Byte) (len : Word16) : Statement (.frameCacheVoice seq addr len) :=
  commandRow_frameHead seq addr _ len

theorem frameSetVolume (seq addr : Byte) (len : Word16) : Statement (.frameSetVolume seq addr len) :=
  commandRow_frameHead seq addr _ len

end Sys2Proof.Laws.TableRow
end

