-- ==== Sys2Proof/Tests/Slice0.lean ====
section
/-!
SUPPORT. Sys2Proof/Tests/Slice0.lean: the model's own tests. Expected values are those of spec/95_test_vectors.md (named
in each docstring as section or program) or are read off an encoding; then, for every statement with hypotheses, a
witness named `test_witness_<statement>`.
-/
namespace Sys2Proof.Tests

open Sys2Proof Sys2Proof.Machine

/-! ## Helpers -/

/-- The `n` low bytes of `w`, most significant first: hex as the spec writes it. -/
def beBytes : Nat → Nat → List Byte
  | 0, _ => []
  | n + 1, w => BitVec.ofNat 8 (w / 256 ^ n) :: beBytes n w

/-- A block just built with SEQ_INIT = 0x6C. -/
def idle : State := State.built ⟨0x6C, 255, .le⟩

/-- The same with CRC_ORDER = BE. -/
def idleBE : State := State.built ⟨0x6C, 255, .be⟩

/-- Section 2.4, row 1, its end state: a frame with one byte to come. -/
def busy1 : State := { idle with crc := 0x7519, phase := .payload, rem := 1, tx := beBytes 8 0xAA556C6400220001 }

/-- Program P3 after its fourth word: a frame with two bytes to come. -/
def busy2 : State :=
  { State.built ⟨0xFF, 255, .le⟩ with
    crc := 0x1744, phase := .payload, rem := 2, tx := beBytes 8 0xAA55FF6400220002 }

/-- `s` with these inputs waiting. -/
def waiting (xs : List HostInput) (s : State) : State := { s with pending := xs }

/-- An operation word as an input. -/
def opIn (w : OpWord) : HostInput := .word (.op w)

/-- What one looks at after an instruction. -/
structure Seen where
  registers : Word16 × Byte × Phase × Word16
  tx : List Byte
  answer : Option Response
  deriving DecidableEq, Repr

/-- The registers, `TX` and the last response of the next state. -/
def seen : Host.Outcome State Fault Refusal → Option Seen
  | .next t => some ⟨t.registers, t.tx, t.lastResponse⟩
  | .fault _ => none
  | .refused _ => none

/-- The next state. -/
def after : Host.Outcome State Fault Refusal → Option State
  | .next t => some t
  | .fault _ => none
  | .refused _ => none

theorem eq_next_of_after {o : Host.Outcome State Fault Refusal} {t : State} (h : after o = some t) : o = .next t := by
  cases o <;> simp_all [after]

/-! ## Well-formedness -/

/-- The one check: a generic frame row does not carry a listed COMMAND value (42_command_ids.md R99, R108). -/
theorem test_wf_generic_row_refuses_listed_command :
    (Instr.frame 0x6C 0x64 0x22 1).wf = false ∧ (Instr.frame 0x6C 0x64 0x23 1).wf = true := by decide

/-- Each listed value is refused there. -/
theorem test_wf_generic_row_refuses_every_listed_command :
    listedCommands.all (fun c => (Instr.frame 0 0 c 0).wf == false) = true ∧ listedCommands.length = 12 := by decide

/-! ## Decoding and encoding -/

/-- Section 2.6, bit by bit: OP, A, B, C. -/
theorem test_decode_crcInit : decode (.op 0b0000000100000000000000000000000000000000) = .instr .crcInit := by decide
theorem test_decode_crcUpd : decode (.op 0b0000001000000000000000000000000001101100) = .instr (.crcUpd 0x6C) := by decide
theorem test_decode_crcRd : decode (.op 0b0000001100000000000000000000000000000000) = .instr .crcRd := by decide
theorem test_decode_frmStart :
    decode (.op 0b0001000001100100001001110000000100000000) = .instr (.frmStart 0x64 0x27 256) := by decide
theorem test_decode_frmData : decode (.op 0b0001000100000000000000000000000000001011) = .instr (.frmData 0x0B) := by decide
theorem test_decode_statRd : decode (.op 0b0010000000000000000000000000000000000000) = .instr .statRd := by decide

/-- Section 2.3, last row: COMMAND 0xFF has no row of its own. HEADER, SEQ, ADDRESS, RESERVED, COMMAND, LENGTH. -/
theorem test_decode_frame :
    decode (.frame 0b1010101001010101011011001111111100000000111111110000000000000001) =
      .instr (.frame 0x6C 0xFF 0xFF 1) := by decide

/-- Section 2.7, row by row, the first eight bytes of the frame. -/
theorem test_decode_command_rows_a :
    decode (.frame 0xAA556C6400010000) = .instr (.frameQueryVersion 0x6C 0x64 0) ∧
    decode (.frame 0xAA556C6400100000) = .instr (.frameSetTime 0x6C 0x64 0) ∧
    decode (.frame 0xAA556C6400210000) = .instr (.frameCancelTempDisplay 0x6C 0x64 0) ∧
    decode (.frame 0xAA556C6400220000) = .instr (.framePlayVoice 0x6C 0x64 0) ∧
    decode (.frame 0xAA556C6400250000) = .instr (.frameLoadAd 0x6C 0x64 0) ∧
    decode (.frame 0xAA556C6400350000) = .instr (.frameLoadAdColor 0x6C 0x64 0) := by decide

theorem test_decode_command_rows_b :
    decode (.frame 0xAA556C6400270000) = .instr (.frameLoadTempDisplay 0x6C 0x64 0) ∧
    decode (.frame 0xAA556C6400370000) = .instr (.frameLoadTempDisplayColorAlt 0x6C 0x64 0) ∧
    decode (.frame 0xAA556C6400280000) = .instr (.frameLoadQrcode 0x6C 0x64 0) ∧
    decode (.frame 0xAA556C6400290000) = .instr (.frameSmallScreenAllLines 0x6C 0x64 0) ∧
    decode (.frame 0xAA556C6400320000) = .instr (.frameCacheVoice 0x6C 0x64 0) ∧
    decode (.frame 0xAA556C6400F00000) = .instr (.frameSetVolume 0x6C 0x64 0) := by decide

/-- Section 2.3, long payloads: the two LENGTH bytes, high byte first. -/
theorem test_decode_head_length :
    decodeFrameBytes (beBytes 9 0xAA556C640027012CA5) = .instr (.frameLoadTempDisplay 0x6C 0x64 300) := by decide

/-- Section 2.5: the illegal words, each by the name of its fault in the encoding. -/
theorem test_decode_illegal_words :
    decodeOp 0x0000000000 = .illegal (.reservedOp 0x00) ∧
    decodeOp 0x0400000000 = .illegal (.reservedOp 0x04) ∧
    decodeOp 0xFF00000000 = .illegal (.reservedOp 0xFF) ∧
    decodeOp 0x0200000100 = .illegal (.mustBeZero 0x02) ∧
    decodeOp 0x0100000001 = .illegal (.mustBeZero 0x01) ∧
    decodeOp 0x1101000000 = .illegal (.mustBeZero 0x11) := by decide

/-- 30_encoding.md R50: the generic row's mask covers HEADER and RESERVED. -/
theorem test_decode_illegal_heads :
    decodeFrameHead 0xAA546C6400010000 = .illegal .notHeader ∧
    decodeFrameHead 0xAA556C6401010000 = .illegal .reservedByteSet ∧
    decodeFrameBytes (beBytes 7 0xAA556C64000100) = .illegal .shortHead := by decide

/-- Section 2.6. -/
theorem test_encode_words :
    encode .crcInit = .op 0x0100000000 ∧ encode (.crcUpd 0x6C) = .op 0x020000006C ∧
    encode .crcRd = .op 0x0300000000 ∧ encode (.frmStart 0xFF 0xFF 65535) = .op 0x10FFFFFFFF ∧
    encode (.frmData 0xFF) = .op 0x11000000FF ∧ encode .statRd = .op 0x2000000000 := by decide

/-- Section 2.3, row 8. -/
theorem test_encode_head : encode (.frameLoadTempDisplay 0x6C 0x64 3) = .frame 0xAA556C6400270003 := by decide

/-- Program P1's first word, numbered as the table numbers it; a row of the frame format is 64 bits wide. -/
theorem test_table_word :
    decodeTableWord 40 0x1064220001 = some (.frmStart 0x64 0x22 1) ∧
    decodeTableWord 64 0xAA556C6400010000 = some (.frameQueryVersion 0x6C 0x64 0) ∧
    decodeTableWord 40 0x0000000000 = none := by decide

/-- 30_encoding.md R48: the address left out is 0x64. -/
theorem test_default_address :
    assembleFrmStart none 0x22 1 = .frmStart 0x64 0x22 1 ∧
    assembleFrmStart (some 0x00) 0x22 1 = .frmStart 0x00 0x22 1 := by decide

/-- Program P1's first BUILD, its address left out. -/
theorem test_default_address_of_build :
    (match assembleBuild none 0x22 [0x0B] idle with
      | .next (r, t) => some (r, t.tx)
      | .fault _ => none
      | .refused _ => none) = some (.ok, beBytes 12 0xAA556C64002200010BF50DAF) := by decide +kernel

/-! ## The checksum -/

/-- Section 2.1, `crc_step`. -/
theorem test_crcStep :
    crcStep 0xFFFF 0x00 = 0x40BF ∧ crcStep 0xFFFF 0x6C = 0x6DBF ∧ crcStep 0x0000 0x80 = 0xA001 ∧
    crcStep 0x8000 0x00 = 0x0080 ∧ crcStep 0x1234 0x56 = 0xE993 := by decide

/-- Section 2.1, `crc16`; the last is "123456789". -/
theorem test_crc16 :
    crc16 (beBytes 2 0xFFFF) = 0x0000 ∧ crc16 (beBytes 7 0x6C64002200010B) = 0x0DF5 ∧
    crc16 (beBytes 9 0x313233343536373839) = 0x4B37 := by decide +kernel

/-- Section 2.1, columns residue and swapped, of `FF`. -/
theorem test_crc16_residue :
    crc16 [0xFF, 0xFF, 0x00] = 0x0000 ∧ crc16 [0xFF, 0x00, 0xFF] = 0xB001 := by decide +kernel

/-- V9's spot values, and one step of section 2.1 by the table and by the halves. -/
theorem test_table_forms :
    tableEntry 0x01 = 0xC0C1 ∧ tableEntry 0x80 = 0xA001 ∧ tableEntry 0xFF = 0x4040 ∧
    crcStepTable 0x1234 0x56 = 0xE993 ∧ crcStepHalves 0x12 0x34 0x56 = (0xE9, 0x93) := by decide

/-! ## The CRC operations (section 2.2) -/

theorem test_crcInit :
    seen (exec .crcInit { idle with crc := 0x1234 }) = some ⟨(0xFFFF, 0x6C, .idle, 0), [], some .ok⟩ := by decide

theorem test_crcInit_busy :
    seen (exec .crcInit busy2) = some ⟨(0x1744, 0xFF, .payload, 2), busy2.tx, some (.err .busy)⟩ := by decide

theorem test_crcUpd :
    seen (exec (.crcUpd 0xF5) { idle with crc := 0x0DF5 }) = some ⟨(0x000D, 0x6C, .idle, 0), [], some .ok⟩ := by decide

theorem test_crcUpd_busy :
    seen (exec (.crcUpd 0x55) busy2) = some ⟨(0x1744, 0xFF, .payload, 2), busy2.tx, some (.err .busy)⟩ := by decide

theorem test_crcRd :
    seen (exec .crcRd idle) = some ⟨(0xFFFF, 0x6C, .idle, 0), [], some (.okValue 0xFFFF)⟩ := by decide

theorem test_crcRd_busy :
    seen (exec .crcRd busy2) = some ⟨(0x1744, 0xFF, .payload, 2), busy2.tx, some (.okValue 0x1744)⟩ := by decide

/-! ## The frame assembler (sections 2.4, 2.5) -/

theorem test_frmStart :
    seen (exec (.frmStart 0x64 0x22 1) idle) =
      some ⟨(0x7519, 0x6C, .payload, 1), beBytes 8 0xAA556C6400220001, some .ok⟩ := by decide +kernel

/-- The wrap of `SEQ`. -/
theorem test_frmStart_empty_wraps :
    seen (exec (.frmStart 0x64 0x01 0) { idle with seq := 0xFF }) =
      some ⟨(0x1C34, 0x00, .idle, 0), beBytes 11 0xAA55FF6400010000341CAF, some .ok⟩ := by decide +kernel

/-- With CRC_ORDER = BE. -/
theorem test_frmData_last_be :
    seen (exec (.frmData 0x0B) { busy1 with params := idleBE.params, tx := [] }) =
      some ⟨(0x0DF5, 0x6D, .idle, 0), beBytes 4 0x0B0DF5AF, some .ok⟩ := by decide

/-- Program P3: not the last byte. -/
theorem test_frmData_inside :
    seen (exec (.frmData 0x01) busy2) =
      some ⟨(0xF3D6, 0xFF, .payload, 1), beBytes 9 0xAA55FF640022000201, some .ok⟩ := by decide

theorem test_statRd_busy :
    seen (exec .statRd busy1) = some ⟨(0x7519, 0x6C, .payload, 1), busy1.tx, some (.okValue 0x016C0001)⟩ := by decide

theorem test_statRd_reset :
    seen (exec .statRd idle) = some ⟨(0xFFFF, 0x6C, .idle, 0), [], some (.okValue 0x006C0000)⟩ := by decide

/-! ## Errors and limits (section 2.5) -/

/-- The edge of MAX_PAYLOAD = 255, from both sides. -/
theorem test_max_payload_255 :
    seen (exec (.frmStart 0x64 0x27 255) idle) =
      some ⟨(0xF488, 0x6C, .payload, 255), beBytes 8 0xAA556C64002700FF, some .ok⟩ ∧
    seen (exec (.frmStart 0x64 0x27 256) idle) =
      some ⟨(0xFFFF, 0x6C, .idle, 0), [], some (.err .payloadTooLarge)⟩ := by decide +kernel

/-- MAX_PAYLOAD = 0 and 65535. -/
theorem test_max_payload_ends :
    seen (exec (.frmStart 0x64 0x22 1) (State.built ⟨0x6C, 0, .le⟩)) =
      some ⟨(0xFFFF, 0x6C, .idle, 0), [], some (.err .payloadTooLarge)⟩ ∧
    seen (exec (.frmStart 0x64 0x27 65535) (State.built ⟨0x6C, 65535, .le⟩)) =
      some ⟨(0x04C9, 0x6C, .payload, 65535), beBytes 8 0xAA556C640027FFFF, some .ok⟩ := by decide +kernel

/-- Phase before operand, and FRM.DATA in IDLE. -/
theorem test_phase_errors :
    seen (exec (.frmStart 0x64 0x27 256) busy2) = some ⟨busy2.registers, busy2.tx, some (.err .busy)⟩ ∧
    seen (exec (.frmData 0x00) idle) = some ⟨idle.registers, idle.tx, some (.err .notInFrame)⟩ := by decide

/-- Decode before phase, the frame staying open; and a head that is no row (log entry 6). -/
theorem test_illegal_words :
    seen (step (waiting [opIn 0xFF00000000] busy2)) = some ⟨busy2.registers, busy2.tx, some (.err .illegalOp)⟩ ∧
    seen (step (waiting [.word (.frame 0)] idle)) = some ⟨idle.registers, idle.tx, some (.err .illegalOp)⟩ := by decide

/-- 60_exceptions.md R113. -/
theorem test_error_codes :
    ErrorCode.payloadTooLarge.code = 1 ∧ ErrorCode.busy.code = 2 ∧ ErrorCode.notInFrame.code = 3 ∧
    ErrorCode.illegalOp.code = 4 := by decide

/-! ## The frame rows (section 2.7; log entry 5: the request for that frame) -/

/-- The `TX` of an accepted request. -/
def sent (i : Instr) : Option (List Byte) := (after (exec i idle)).map State.tx

/-- Section 2.3, last row: the first eight bytes of that frame, whose payload is one byte. -/
theorem test_frame : sent (.frame 0x6C 0xFF 0xFF 1) = some (beBytes 8 0xAA556CFF00FF0001) := by decide

/-- The SEQ emitted is the block's (10_state.md R11). -/
theorem test_frame_seq_is_the_blocks :
    sent (.frameQueryVersion 0x00 0x64 0) = some (beBytes 11 0xAA556C6400010000297FAF) := by decide +kernel

theorem test_frameQueryVersion :
    sent (.frameQueryVersion 0x6C 0x64 0) = some (beBytes 11 0xAA556C6400010000297FAF) := by decide +kernel
theorem test_frameSetTime :
    sent (.frameSetTime 0x6C 0x64 0) = some (beBytes 11 0xAA556C6400100000797AAF) := by decide +kernel
theorem test_frameCancelTempDisplay :
    sent (.frameCancelTempDisplay 0x6C 0x64 0) = some (beBytes 11 0xAA556C640021000028B5AF) := by decide +kernel
theorem test_framePlayVoice :
    sent (.framePlayVoice 0x6C 0x64 0) = some (beBytes 11 0xAA556C6400220000D8B5AF) := by decide +kernel
theorem test_frameLoadAd :
    sent (.frameLoadAd 0x6C 0x64 0) = some (beBytes 11 0xAA556C64002500006974AF) := by decide +kernel
theorem test_frameLoadAdColor :
    sent (.frameLoadAdColor 0x6C 0x64 0) = some (beBytes 11 0xAA556C640035000068B1AF) := by decide +kernel
theorem test_frameLoadTempDisplay :
    sent (.frameLoadTempDisplay 0x6C 0x64 0) = some (beBytes 11 0xAA556C6400270000C8B4AF) := by decide +kernel
theorem test_frameLoadTempDisplayColorAlt :
    sent (.frameLoadTempDisplayColorAlt 0x6C 0x64 0) = some (beBytes 11 0xAA556C6400370000C971AF) := by decide +kernel
theorem test_frameLoadQrcode :
    sent (.frameLoadQrcode 0x6C 0x64 0) = some (beBytes 11 0xAA556C6400280000F8B7AF) := by decide +kernel
theorem test_frameSmallScreenAllLines :
    sent (.frameSmallScreenAllLines 0x6C 0x64 0) = some (beBytes 11 0xAA556C6400290000A977AF) := by decide +kernel
theorem test_frameCacheVoice :
    sent (.frameCacheVoice 0x6C 0x64 0) = some (beBytes 11 0xAA556C6400320000D970AF) := by decide +kernel
theorem test_frameSetVolume :
    sent (.frameSetVolume 0x6C 0x64 0) = some (beBytes 11 0xAA556C6400F00000788CAF) := by decide +kernel

/-! ## Frames as byte sequences -/

/-- Section 2.3, rows 1 and 8: both orders, and a payload that looks like a header and a terminator. -/
theorem test_frameBytes :
    frameBytes .le 0x6C 0x64 0x22 [0x0B] = beBytes 12 0xAA556C64002200010BF50DAF ∧
    frameBytes .be 0x6C 0x64 0x27 [0xAA, 0x55, 0xAF] = beBytes 14 0xAA556C6400270003AA55AFB6A9AF := by decide +kernel

/-- The same frames read back; V1's literal is not well-formed in either order (90_conflicts.md C1). -/
theorem test_readFrame :
    readFrame (beBytes 14 0xAA556C6400270003AA55AFB6A9AF ++ [0x01]) =
      some (beBytes 14 0xAA556C6400270003AA55AFB6A9AF, [0x01]) ∧
    wellFormedFrame .le (beBytes 12 0xAA556C64002200010BF50DAF) = true ∧
    wellFormedFrame .le (beBytes 12 0xAA550164002200010B0776AF) = false ∧
    wellFormedFrame .be (beBytes 12 0xAA550164002200010B0776AF) = false := by decide +kernel

/-! ## Steps -/

/-- Program P5: the reset event, in the middle of a frame, keeps `TX` and gives no response. -/
theorem test_reset_event :
    after (step (waiting [.reset] busy1)) =
      some { busy1 with crc := 0xFFFF, seq := 0x6C, phase := .idle, rem := 0 } := by decide

/-- Nothing waiting, nothing happens (60_exceptions.md R116). -/
theorem test_step_idles : after (step busy1) = some busy1 := by decide

/-- A word placed as the next instruction is the one that the first step after reset runs, from an operation row and
from a frame row. -/
theorem test_withFetchWord :
    seen (step (State.reset.withFetchWord 40 0x1064220001)) =
      some ⟨(0x7519, 0x6C, .payload, 1), beBytes 8 0xAA556C6400220001, some .ok⟩ ∧
    seen (step (State.reset.withFetchWord 64 0xAA556C6400010000)) =
      some ⟨(0x7F29, 0x6D, .idle, 0), beBytes 11 0xAA556C6400010000297FAF, some .ok⟩ := by decide +kernel

/-- 10_state.md R21, 70_reset_and_hazards.md R130. -/
theorem test_state_reset :
    State.reset.registers = (0xFFFF, 0x6C, .idle, 0) ∧ State.reset.tx = [] ∧ State.reset.pending = [] := by decide

/-! ## Witnesses: the hypotheses of each statement, met together -/

theorem test_witness_CrcInitResult : idle.phase = .idle ∧ busy2.phase = .payload := by decide

theorem test_witness_CrcUpdResult :
    (0x020000006C : OpWord).toNat = 0x0200000000 + (0x6C : Byte).toNat ∧
    idle.phase = .idle ∧ busy2.phase = .payload := by decide

theorem test_witness_Crc16NetEffect : idle.phase = .idle ∧ busy2.phase = .payload := by decide

/-- `len` 1 and 255 for the first clause, 0 for the second, a busy block for the third, 256 for the fourth. -/
theorem test_witness_FrmStartResult :
    (0x1064220001 : OpWord).toNat =
      0x10 * 2 ^ 32 + (0x64 : Byte).toNat * 2 ^ 24 + (0x22 : Byte).toNat * 2 ^ 16 + (1 : Word16).toNat ∧
    (idle.phase = .idle ∧ (1 : Word16).toNat ≤ idle.params.maxPayload.toNat ∧ (1 : Word16) ≠ 0) ∧
    ((255 : Word16).toNat ≤ idle.params.maxPayload.toNat ∧ (255 : Word16) ≠ 0) ∧
    busy2.phase = .payload ∧ idle.params.maxPayload.toNat < (256 : Word16).toNat := by decide

theorem test_witness_CompleteFrameStep : busy1.params.crcOrder = .le ∧ idleBE.params.crcOrder = .be := by decide

/-- `REM` 2 and 65535 for the middle clause, 1 for the last. -/
theorem test_witness_FrmDataResult :
    (0x110000000B : OpWord).toNat = 0x1100000000 + (0x0B : Byte).toNat ∧ idle.phase = .idle ∧
    (busy2.phase = .payload ∧ 2 ≤ busy2.rem.toNat) ∧ 2 ≤ { busy2 with rem := 65535 }.rem.toNat ∧
    (busy1.phase = .payload ∧ busy1.rem.toNat = 1) := by decide

theorem test_witness_phaseRemInv_idle : PhaseRemInv idle := by
  unfold PhaseRemInv
  decide

theorem test_witness_phaseRemInv_busy : PhaseRemInv busy1 ∧ PhaseRemInv busy2 := by
  unfold PhaseRemInv
  decide

/-- With `idle`, `busy1` and `busy2`, which meet the invariant: a value for every row of the table. -/
theorem test_witness_PhaseTransitionTable :
    PhaseRemInv idle ∧ PhaseRemInv busy1 ∧ PhaseRemInv busy2 ∧ idle.phase = .idle ∧
    idle.params.maxPayload.toNat < (256 : Word16).toNat ∧ (255 : Word16).toNat ≤ idle.params.maxPayload.toNat ∧
    busy2.phase = .payload ∧ 2 ≤ busy2.rem.toNat ∧ busy1.phase = .payload ∧ busy1.rem = 1 := by
  refine ⟨test_witness_phaseRemInv_idle, test_witness_phaseRemInv_busy.1, test_witness_phaseRemInv_busy.2, ?_⟩
  decide

/-- Each length the statement names: a request refused, with 8 bytes and with 11; data with 0, 1 and 4; another with 0. -/
theorem test_witness_EmissionWidths :
    ((after (exec (.frmStart 0x64 0x22 256) idle)).map (fun t => t.tx.length) = some 0 ∧
      (after (exec (.frmStart 0x64 0x22 1) idle)).map (fun t => t.tx.length) = some 8 ∧
      (after (exec (.frameSetTime 0x6C 0x64 0) idle)).map (fun t => t.tx.length) = some 11) ∧
    ((after (exec (.frmData 0x0B) idle)).map (fun t => t.tx.length) = some 0 ∧
      (after (exec (.frmData 0x01) busy2)).map (fun t => t.tx.length) = some 9 ∧
      (after (exec (.frmData 0x0B) busy1)).map (fun t => t.tx.length) = some 12) ∧
    (after (exec .crcRd idle)).map (fun t => t.tx.length) = some 0 := by decide

theorem test_witness_FrameRowsAreAccepted :
    idle.phase = .idle ∧ (0 : Word16).toNat ≤ idle.params.maxPayload.toNat ∧
    (255 : Word16).toNat ≤ idle.params.maxPayload.toNat := by decide

theorem test_witness_FrameRowsAreRefusedAsFrmStart :
    frameRequest (.framePlayVoice 0x6C 0x64 256) = some (0x64, 0x22, 256) ∧ busy2.phase = .payload ∧
    (idle.phase = .idle ∧ idle.params.maxPayload.toNat < (256 : Word16).toNat) := by decide

theorem test_witness_CommandByteIsOpaque :
    (idle.phase = .idle ∧ (0 : Word16).toNat ≤ idle.params.maxPayload.toNat ∧
      (255 : Word16).toNat ≤ idle.params.maxPayload.toNat) ∧
    (busy2.phase = .payload ∨ busy2.params.maxPayload.toNat < (1 : Word16).toNat) ∧
    (idle.phase = .payload ∨ idle.params.maxPayload.toNat < (256 : Word16).toNat) := by decide

theorem test_witness_EmittedHeadDecodesToItsRow :
    idle.phase = .idle ∧ (0 : Word16).toNat ≤ idle.params.maxPayload.toNat ∧
    (255 : Word16).toNat ≤ idle.params.maxPayload.toNat := by decide

/-- P3's first word. -/
theorem test_witness_RefusalChangesNothing :
    ∃ t, step (waiting [opIn 0x1064270100] idle) = .next t ∧
      t.responses = (waiting [opIn 0x1064270100] idle).responses ++ [.err .payloadTooLarge] :=
  ⟨{ idle with responses := [.err .payloadTooLarge] }, eq_next_of_after (by decide), rfl⟩

/-- The word is answered with the error, and another word is not. -/
theorem test_witness_PayloadTooLargeExactly :
    (waiting [opIn 0x1064270100] idle).pending = .word (.op 0x1064270100) :: [] ∧
    (after (step (waiting [opIn 0x1064270100] idle))).map State.responses = some [.err .payloadTooLarge] ∧
    (after (step (waiting [opIn 0x1064220001] idle))).map State.responses = some [.ok] := by decide

theorem test_witness_BusyExactly :
    (waiting [opIn 0x0100000000] busy2).pending = .word (.op 0x0100000000) :: [] ∧
    (after (step (waiting [opIn 0x0100000000] busy2))).map State.responses = some [.err .busy] ∧
    (after (step (waiting [opIn 0x0100000000] idle))).map State.responses = some [.ok] := by decide

theorem test_witness_NotInFrameExactly :
    (waiting [opIn 0x1100000000] idle).pending = .word (.op 0x1100000000) :: [] ∧
    (after (step (waiting [opIn 0x1100000000] idle))).map State.responses = some [.err .notInFrame] ∧
    (after (step (waiting [opIn 0x1100000000] busy1))).map State.responses = some [.ok] := by decide

theorem test_witness_IllegalOpExactly :
    (waiting [opIn 0x1101000000] busy2).pending = .word (.op 0x1101000000) :: [] ∧
    (after (step (waiting [opIn 0x1101000000] busy2))).map State.responses = some [.err .illegalOp] ∧
    (after (step (waiting [opIn 0x1100000000] busy2))).map State.responses = some [.ok] := by decide

/-- Two errors at once: phase and operand; and one word with no error. -/
theorem test_witness_ErrorPriority :
    (waiting [opIn 0x1064270100] busy2).pending = .word (.op 0x1064270100) :: [] ∧
    reportedError busy2 (decodeOp 0x1064270100) = some .busy ∧
    (after (step (waiting [opIn 0x1064270100] busy2))).map State.responses = some [.err .busy] ∧
    reportedError busy2 (decodeOp 0x2000000000) = none := by decide

/-- P3's refused operations inside the frame, and an illegal word. -/
theorem test_witness_RefusedRunsLeaveNoTrace :
    ∃ t, Host.Core.run core 3 (waiting [opIn 0x1064010000, opIn 0x0100000000, opIn 0xFF00000000] busy2) = .next t ∧
      ∃ es : List ErrorCode, es.length = 3 ∧ t.responses = busy2.responses ++ es.map .err :=
  ⟨{ busy2 with responses := [.err .busy, .err .busy, .err .illegalOp] }, rfl, [.busy, .busy, .illegalOp], rfl, rfl⟩

theorem test_witness_EveryWordIsAnsweredOnce :
    (waiting [opIn 0x0300000000] idle).pending = .word (.op 0x0300000000) :: [] ∧
    (waiting [opIn 0x0000000000, .reset] idle).pending = .word (.op 0x0000000000) :: [.reset] := by decide

theorem test_witness_ResetEventResult : (waiting [.reset] busy1).pending = .reset :: [] := by decide

theorem test_witness_ResetAbandonsTheFrame :
    (waiting [.reset, .word (encode (.frmStart 0x64 0x22 1))] busy1).phase = .payload ∧ (1 : Word16) ≠ 0 ∧
    (1 : Word16).toNat ≤ busy1.params.maxPayload.toNat ∧
    (waiting [.reset, .word (encode (.frmStart 0x64 0x22 1))] busy1).pending =
      .reset :: .word (encode (.frmStart 0x64 0x22 1)) :: [] := by decide

/-- The three clauses: a reset, an operation that leaves `SEQ`, the last byte of a frame. -/
theorem test_witness_SeqIsWrittenOnlyByCompletionAndReset :
    (after (step (waiting [.reset] { busy2 with seq := 0x05 }))).map State.seq = some 0xFF ∧
    (after (step (waiting [opIn 0x2000000000] busy1))).map State.seq = some 0x6C ∧
    (after (step (waiting [opIn 0x110000000B] busy1))).map State.seq = some 0x6D := by decide

/-- In IDLE and in PAYLOAD, an instruction that changes `CRC`. -/
theorem test_witness_CrcIsWrittenOnlyByItsWriters :
    (∃ t, exec .crcInit { idle with crc := 0x1234 } = .next t ∧ t.crc ≠ 0x1234) ∧
    (∃ t, exec (.frmStart 0x64 0x22 1) idle = .next t ∧ t.crc ≠ idle.crc) ∧
    (∃ t, exec (.frmData 0x01) busy2 = .next t ∧ t.crc ≠ busy2.crc) :=
  ⟨⟨_, rfl, by decide +kernel⟩, ⟨_, rfl, by decide +kernel⟩, ⟨_, rfl, by decide +kernel⟩⟩

theorem test_witness_TxOnlyGrows : ∃ t, step (waiting [opIn 0x110000000B] busy1) = .next t ∧ t.tx ≠ busy1.tx :=
  ⟨_, rfl, by decide⟩

theorem test_witness_OnlyDataEmitsInsideAFrame :
    ∃ t, (waiting [opIn 0x110000000B] busy1).phase = .payload ∧ step (waiting [opIn 0x110000000B] busy1) = .next t ∧
      t.tx = (waiting [opIn 0x110000000B] busy1).tx ++ beBytes 4 0x0BF50DAF ∧ beBytes 4 0x0BF50DAF ≠ [] :=
  ⟨_, rfl, rfl, by decide, by decide⟩

theorem test_witness_AcceptedFrmStartForgetsCrc :
    idle.phase = .idle ∧ (255 : Word16).toNat ≤ idle.params.maxPayload.toNat ∧ (0x1234 : Word16) ≠ idle.crc := by decide

/-- A step that completes a frame. -/
theorem test_witness_StepKeepsPhaseRemInvariant :
    ∃ t, PhaseRemInv (waiting [opIn 0x110000000B] busy1) ∧ step (waiting [opIn 0x110000000B] busy1) = .next t ∧
      t.phase = .idle :=
  ⟨_, test_witness_phaseRemInv_busy.1, rfl, by decide⟩

theorem test_witness_openFrame : OpenFrame [] busy1 :=
  ⟨0x64, 0x22, 1, [], by decide +kernel, by decide +kernel, by decide +kernel⟩

theorem test_witness_StepKeepsRunningChecksum :
    ∃ t, RunningChecksumInv (waiting [opIn 0x110000000B] busy1) ∧ step (waiting [opIn 0x110000000B] busy1) = .next t :=
  ⟨_, ⟨test_witness_phaseRemInv_busy.1, fun _ => ⟨[], test_witness_openFrame⟩⟩, rfl⟩

theorem test_witness_StepKeepsStreamOfFrames :
    ∃ t, StreamInv (waiting [opIn 0x110000000B] busy1) ∧ ¬ ResetInFrame (waiting [opIn 0x110000000B] busy1) ∧
      step (waiting [opIn 0x110000000B] busy1) = .next t := by
  refine ⟨_, ⟨test_witness_phaseRemInv_busy.1, fun h => ?_, fun _ => ⟨[], ⟨[], by simp, rfl⟩, test_witness_openFrame⟩⟩,
    ?_, rfl⟩
  · exact absurd h (by decide)
  · exact fun h => absurd h.2 (by decide)

/-- P1's first two words, stopped inside the frame and at its end. -/
theorem test_witness_ReachableStatesKeepPhaseAndRemTogether :
    (∃ t, Host.Core.run core 1 { State.built idle.params with pending := [opIn 0x1064220001] } = .next t ∧
      t.phase = .payload) ∧
    (∃ t, Host.Core.run core 2 { State.built idle.params with pending := [opIn 0x1064220001, opIn 0x110000000B] } =
      .next t ∧ t.phase = .idle) :=
  ⟨⟨_, rfl, by decide⟩, ⟨_, rfl, by decide⟩⟩

theorem test_witness_CleanRunsEmitWholeFrames :
    ∃ t, HostInput.reset ∉ [opIn 0x1064220001, opIn 0x110000000B] ∧
      Host.Core.run core 2 { State.built idle.params with pending := [opIn 0x1064220001, opIn 0x110000000B] } =
        .next t ∧ CleanEnd t ∧ t.tx = beBytes 12 0xAA556C64002200010BF50DAF := by
  refine ⟨_, by decide +kernel, rfl, ?_, by decide +kernel⟩
  unfold CleanEnd
  decide

/-- Of each format, the generic row among them. -/
theorem test_witness_DecodeOfEncode :
    (Instr.frmStart 0x64 0x22 1).wf = true ∧ (Instr.frame 0x6C 0x64 0x00 0).wf = true ∧
    (Instr.frameSetVolume 0x6C 0x64 0).wf = true := by decide

theorem test_witness_EncodeOfDecode :
    decode (.op 0x1064220001) = .instr (.frmStart 0x64 0x22 1) ∧
    decode (.frame 0xAA55640000000000) = .instr (.frame 0x64 0x00 0x00 0) := by decide

theorem test_witness_OperationTableIsTheDecoder : decodeOp 0x11000000FF = .instr (.frmData 0xFF) := by decide

/-- A head inside a command row, one in the generic row only, one in none. -/
theorem test_witness_FrameTableIsTheDecoder :
    (0x22 : Byte) ∈ listedCommands ∧ (commandRow 0x22).covers 0xAA556C6400220001 = true ∧
    (commandRow 0x22).covers 0xAA556C6400230001 = false ∧ genericFrameRow.covers 0xAA556C6400230001 = true ∧
    genericFrameRow.covers 0xAB556C6400230001 = false := by decide

/-- One state for each of the four clauses. -/
theorem test_witness_StepRunsTheDecodedInstruction :
    ((waiting [opIn 0x110000000B] busy1).pending = .word (.op 0x110000000B) :: [] ∧
      decode (.op 0x110000000B) = .instr (.frmData 0x0B)) ∧
    ((waiting [opIn 0x0400000000] busy1).pending = .word (.op 0x0400000000) :: [] ∧
      decode (.op 0x0400000000) = .illegal (.reservedOp 0x04)) ∧
    (waiting [.reset] busy1).pending = .reset :: [] ∧ busy1.pending = [] := by decide

theorem test_witness_LaterInputsDoNotMatter :
    ∃ t, (waiting [opIn 0x1064220001, opIn 0x110000000B] idle).pending = [opIn 0x1064220001, opIn 0x110000000B] ∧
      Host.Core.run core 2 (waiting [opIn 0x1064220001, opIn 0x110000000B] idle) = .next t :=
  ⟨_, rfl, rfl⟩

/-- Two instances: the second steps. -/
theorem test_witness_InstancesShareNothing :
    ∃ z, System.stepAt 1 ⟨[idle, waiting [.reset] busy1]⟩ = .next z ∧ (0 : Nat) ≠ 1 ∧
      z.blocks[0]? = some idle ∧ z.blocks[1]?.map State.phase = some .idle :=
  ⟨_, rfl, by decide, by decide, by decide⟩

theorem test_witness_FrameFieldTable :
    ([] : List Byte).length ≤ 65535 ∧ (beBytes 3 0xAA55AF).length ≤ 65535 ∧ 0 < (beBytes 3 0xAA55AF).length := by decide

theorem test_witness_ReaderRecoversFrames :
    (beBytes 3 0xAA55AF).length ≤ 65535 ∧
    wellFormedFrame .be (beBytes 14 0xAA556C6400270003AA55AFB6A9AF) = true := by decide +kernel

/-- One payload within the limit, one at it, one beyond it, and a busy block. -/
theorem test_witness_BuildNetEffect :
    idle.phase = .idle ∧ [(0x0B : Byte)].length ≤ idle.params.maxPayload.toNat ∧
    (beBytes 255 0).length ≤ idle.params.maxPayload.toNat ∧
    idle.params.maxPayload.toNat < (List.replicate 256 (0 : Byte)).length ∧ busy2.phase = .payload := by
  refine ⟨rfl, by decide +kernel, by decide +kernel, by decide +kernel, rfl⟩

theorem test_witness_PortWordsOfBuildAppendTheFrame :
    idle.phase = .idle ∧ [(0x0B : Byte)].length ≤ idle.params.maxPayload.toNat ∧
    (waiting [opIn 0x1064220001, opIn 0x110000000B, .reset] idle).pending =
      portWords (buildInstrs 0x64 0x22 [0x0B]) ++ [.reset] := by decide

theorem test_witness_MissingBytesCompleteTheFrame :
    PhaseRemInv busy1 ∧ busy1.phase = .payload ∧ OpenFrame [] busy1 ∧ [(0x0B : Byte)].length = busy1.rem.toNat :=
  ⟨test_witness_phaseRemInv_busy.1, rfl, test_witness_openFrame, rfl⟩

/-- Two blocks that agree on `SEQ` and CRC_ORDER and on nothing else. -/
theorem test_witness_BuildIsDeterministicInSeq :
    ∃ s s' : State, s.phase = .idle ∧ s'.phase = .idle ∧ [(0x0B : Byte)].length ≤ s.params.maxPayload.toNat ∧
      [(0x0B : Byte)].length ≤ s'.params.maxPayload.toNat ∧ s'.seq = s.seq ∧
      s'.params.crcOrder = s.params.crcOrder ∧ s'.crc ≠ s.crc ∧ s'.tx ≠ s.tx ∧
      s'.params.maxPayload ≠ s.params.maxPayload :=
  ⟨idle, { State.built ⟨0x00, 1, .le⟩ with crc := 0x0DF5, seq := 0x6C, tx := [0xAF] }, by decide⟩

/-- P4: 256 accepted requests. -/
theorem test_witness_SequenceNumbersCount :
    idle.phase = .idle ∧
    ((List.replicate 256 (⟨0x64, 0x01, []⟩ : BuildRequest)).filter
      fun q => q.payload.length ≤ idle.params.maxPayload.toNat).length = 256 := by
  exact ⟨rfl, by decide +kernel⟩

end Sys2Proof.Tests
end

/-!
PROOFS. State and reset, 10_state.md. First the layer that the proofs share: what an accepted or refused instruction does
to the block as one relation with a named case per outcome, what every step of a run keeps, and what the parts of the
invariants say of each operation.
-/
namespace Sys2Proof.Machine

/-! ## What an instruction can do to the block -/

/-- The outcomes of an instruction, guards included: a bare answer (a read, or any refusal), a write of `CRC` in IDLE, a
frame without payload, a frame opened, a payload byte taken, and the last payload byte of a frame. -/
inductive ExecEffect (i : Instr) (s : State) : State → Prop
  | answers (r : Response) : ExecEffect i s (s.respond r)
  | writesCrc (c : Word16) (idle : s.phase = .idle) (writer : i = .crcInit ∨ ∃ b, i = .crcUpd b) :
      ExecEffect i s ((s.setCrc c).respond .ok)
  | emitsWhole (addr cmd : Byte) (idle : s.phase = .idle) (request : frameRequest i = some (addr, cmd, 0)) :
      ExecEffect i s ((completeFrame (openFrame addr cmd 0 s)).respond .ok)
  | opens (addr cmd : Byte) (len : Word16) (idle : s.phase = .idle) (fits : len ≤ s.params.maxPayload)
      (nonzero : len ≠ 0) (request : frameRequest i = some (addr, cmd, len)) :
      ExecEffect i s (((openFrame addr cmd len s).setPhase .payload).respond .ok)
  | takes (b : Byte) (busy : s.phase = .payload) (notLast : s.rem ≠ 1) (data : i = .frmData b) :
      ExecEffect i s ((takeByte b s).respond .ok)
  | takesLast (b : Byte) (busy : s.phase = .payload) (last : s.rem = 1) (data : i = .frmData b) :
      ExecEffect i s ((completeFrame (takeByte b s)).respond .ok)

/-- An operation that writes `CRC` is refused in PAYLOAD and has its write in IDLE (40_crc.md R65, R66). -/
theorem ExecEffect.of_crcWriter {i : Instr} (s : State) (c : Word16) (writer : i = .crcInit ∨ ∃ b, i = .crcUpd b) :
    ExecEffect i s (if s.phase = .payload then s.raise .busy else (s.setCrc c).respond .ok) := by
  cases hp : s.phase with
  | idle => exact .writesCrc c hp writer
  | payload => exact .answers _

theorem ExecEffect.of_supplyByte (b : Byte) (s : State) : ExecEffect (.frmData b) s (supplyByte b s) := by
  rcases supplyByte_cases b s with ⟨-, e⟩ | ⟨busy, last, e⟩ | ⟨busy, notLast, e⟩ <;> rw [e]
  · exact .answers _
  · exact .takesLast b busy last rfl
  · exact .takes b busy notLast rfl

theorem ExecEffect.of_startFrame {i : Instr} {addr cmd : Byte} {len : Word16} (s : State)
    (request : frameRequest i = some (addr, cmd, len)) : ExecEffect i s (startFrame addr cmd len s) := by
  rcases startFrame_cases addr cmd len s with ⟨-, e⟩ | ⟨-, -, e⟩ | ⟨idle, -, rfl, e⟩ | ⟨idle, fits, nonzero, e⟩ <;> rw [e]
  · exact .answers _
  · exact .answers _
  · exact .emitsWhole addr cmd idle request
  · exact .opens addr cmd len idle fits nonzero request

/-- Every instruction has one of these outcomes. -/
theorem execEffect_of_exec {i : Instr} {s t : State} (h : exec i s = .next t) : ExecEffect i s t := by
  rcases exec_cases i s with ⟨rfl, e⟩ | ⟨b, rfl, e⟩ | ⟨-, e⟩ | ⟨-, e⟩ | ⟨b, rfl, e⟩ | ⟨addr, cmd, len, request, e⟩ <;>
    rw [e] at h <;> cases h
  · exact .of_crcWriter s _ (.inl rfl)
  · exact .of_crcWriter s _ (.inr ⟨b, rfl⟩)
  · exact .answers _
  · exact .answers _
  · exact .of_supplyByte b s
  · exact .of_startFrame s request

/-! ## What every step keeps, and every run -/

/-- A predicate that taking an input, a reset event, an answer and every instruction keep is kept by every step. -/
theorem step_keeps {P : State → Prop} (taken : ∀ s rest, P s → P { s with pending := rest })
    (reset : ∀ s, P s → P (resetEvent s)) (answer : ∀ s r, P s → P (s.respond r))
    (instr : ∀ i s t, P s → ExecEffect i s t → P t) {s t : State} (hs : P s) (h : step s = .next t) : P t := by
  rcases step_cases h with ⟨-, rfl⟩ | ⟨rest, -, rfl⟩ | ⟨_, rest, _, -, -, rfl⟩ | ⟨_, rest, i, -, -, hx⟩
  · exact hs
  · exact reset _ (taken s rest hs)
  · exact answer _ _ (taken s rest hs)
  · exact instr i _ t (taken s rest hs) (execEffect_of_exec hx)

/-- What a block was built with never changes (10_state.md R14). -/
theorem step_params {s t : State} (h : step s = .next t) : t.params = s.params := by
  rcases step_cases h with ⟨-, rfl⟩ | ⟨_, -, rfl⟩ | ⟨_, _, _, -, -, rfl⟩ | ⟨_, rest, i, -, -, hx⟩
  · rfl
  · rfl
  · rfl
  · obtain ⟨u, _, hu, -, -, hparams⟩ := exec_answers i { s with pending := rest }
    cases hu.symm.trans hx
    exact hparams

/-- A run of `k + 1` steps is a step and a run of `k`. -/
theorem step_of_run_succ {k : Nat} {s t : State} (h : Host.Core.run core (k + 1) s = .next t) :
    ∃ u, step s = .next u ∧ Host.Core.run core k u = .next t := by
  cases hs : step s with
  | next u => exact ⟨u, rfl, run_succ hs ▸ h⟩
  | fault r => exact nomatch r
  | refused r =>
    have hs' : core.step s = .refused r := hs
    simp only [Host.Core.run, hs'] at h
    cases h

/-- What every step keeps holds at the end of every run. -/
theorem run_keeps {P : State → Prop} (keeps : ∀ s t, P s → step s = .next t → P t) {k : Nat} {s t : State} (hs : P s)
    (h : Host.Core.run core k s = .next t) : P t := by
  induction k generalizing s with
  | zero =>
    cases h
    exact hs
  | succ k ih =>
    obtain ⟨u, hsu, hut⟩ := step_of_run_succ h
    exact ih (keeps s u hs hsu) hut

/-! ## PHASE and REM (10_state.md R22) -/

theorem phaseRemInv_of_idle {s : State} (hp : s.phase = .idle) (hr : s.rem = 0) : PhaseRemInv s := by
  simp [PhaseRemInv, hp, hr]

theorem phaseRemInv_of_payload {s : State} (hp : s.phase = .payload) (low : 1 ≤ s.rem.toNat)
    (high : s.rem.toNat ≤ s.params.maxPayload.toNat) : PhaseRemInv s := by
  have hr : s.rem ≠ 0 := fun h => by simp [h] at low
  exact ⟨by simpa [hp] using hr, fun _ => ⟨low, high⟩⟩

theorem phaseRemInv_resetEvent (s : State) : PhaseRemInv (resetEvent s) := phaseRemInv_of_idle rfl rfl

theorem phaseRemInv_built (p : Params) : PhaseRemInv (State.built p) := phaseRemInv_of_idle rfl rfl

/-- While bytes are missing, the subtraction of FRM.DATA does not wrap. -/
theorem toNat_rem_sub_one {r : Word16} (h : 1 ≤ r.toNat) : (r - 1).toNat = r.toNat - 1 := by
  bv_omega

theorem execEffect_keeps_phaseRemInv (i : Instr) (s t : State) (hs : PhaseRemInv s) (h : ExecEffect i s t) :
    PhaseRemInv t := by
  cases h with
  | answers r => exact hs
  | writesCrc c => exact hs
  | emitsWhole addr cmd => exact phaseRemInv_of_idle rfl rfl
  | opens addr cmd len idle fits nonzero =>
    rw [openFrame_eq]
    have low : 1 ≤ len.toNat := by bv_omega
    exact phaseRemInv_of_payload rfl low (BitVec.le_def.mp fits)
  | takes b busy notLast =>
    obtain ⟨low, high⟩ := hs.2 busy
    have notLast' : s.rem.toNat ≠ 1 := by bv_omega
    have less := toNat_rem_sub_one low
    rw [takeByte_eq]
    refine phaseRemInv_of_payload busy ?_ ?_
    · simp only [State.respond_rem]
      omega
    · simp only [State.respond_rem, State.respond_params]
      omega
  | takesLast b => exact phaseRemInv_of_idle rfl rfl

/-- Settles O36: every outcome of an instruction keeps the invariant, the guard `REM ≠ 1` being what keeps `REM` from 0
in PAYLOAD; a reset event establishes it. -/
theorem stepKeepsPhaseRemInvariant : Obligations.StepKeepsPhaseRemInvariant := by
  intro s t hs h
  exact step_keeps (fun _ _ hs => hs) (fun s _ => phaseRemInv_resetEvent s) (fun _ _ hs => hs)
    execEffect_keeps_phaseRemInv hs h

/-! ## The running checksum (10_state.md R20) -/

/-- One byte more is one step more (40_crc.md R64). -/
theorem crc16_concat (bs : List Byte) (b : Byte) : crc16 (bs ++ [b]) = crcStep (crc16 bs) b :=
  (crcFrom_crc16 bs [b]).symm

/-- An opened frame begins where `TX` ended, with no payload byte yet. -/
theorem openFrame_opens (addr cmd : Byte) (len : Word16) (s : State) : OpenFrame s.tx (openFrame addr cmd len s) := by
  rw [openFrame_eq]
  exact ⟨addr, cmd, len, [], by simp, by simp, by simp⟩

/-- A payload byte makes the frame in progress one byte longer, and `CRC` follows it. -/
theorem takeByte_keeps_openFrame {before : List Byte} {s : State} (b : Byte) (low : 1 ≤ s.rem.toNat)
    (h : OpenFrame before s) : OpenFrame before (takeByte b s) := by
  obtain ⟨addr, cmd, len, p, htx, hlen, hcrc⟩ := h
  have less := toNat_rem_sub_one low
  rw [takeByte_eq]
  refine ⟨addr, cmd, len, p ++ [b], by simp [htx], ?_, ?_⟩
  · simp only [List.length_append, List.length_singleton]
    omega
  · simp only [hcrc]
    rw [← List.append_assoc, crc16_concat]

theorem runningChecksumInv_of_idle {s : State} (hp : s.phase = .idle) (hr : s.rem = 0) : RunningChecksumInv s :=
  ⟨phaseRemInv_of_idle hp hr, fun busy => by simp [hp] at busy⟩

theorem execEffect_keeps_runningChecksumInv (i : Instr) (s t : State) (hs : RunningChecksumInv s)
    (h : ExecEffect i s t) : RunningChecksumInv t := by
  obtain ⟨hinv, hopen⟩ := hs
  refine ⟨execEffect_keeps_phaseRemInv i s t hinv h, fun busy' => ?_⟩
  cases h with
  | answers r => exact hopen busy'
  | writesCrc c idle => exact absurd (idle.symm.trans busy') (by decide)
  | emitsWhole addr cmd => cases busy'
  | opens addr cmd len => exact ⟨s.tx, openFrame_opens addr cmd len s⟩
  | takes b busy =>
    obtain ⟨before, hbefore⟩ := hopen busy
    exact ⟨before, takeByte_keeps_openFrame b (hinv.2 busy).1 hbefore⟩
  | takesLast b => cases busy'

/-- Settles O37: `CRC` is written in PAYLOAD only by FRM.DATA, which appends the byte to the frame in progress and takes
one step of the checksum by it; opening a frame starts both, and completion and reset leave no frame in progress. -/
theorem stepKeepsRunningChecksum : Obligations.StepKeepsRunningChecksum := by
  intro s t hs h
  exact step_keeps (fun _ _ hs => hs) (fun _ _ => runningChecksumInv_of_idle rfl rfl) (fun _ _ hs => hs)
    execEffect_keeps_runningChecksumInv hs h

/-! ## Who writes SEQ and CRC (10_state.md R10, R11) -/

/-- From `s` to `t` a frame was completed: `SEQ` counts it, the block is idle and `TX` has grown by the end of a frame. -/
def FrameCompleted (s t : State) : Prop :=
  t.seq.toNat = (s.seq.toNat + 1) % 256 ∧ t.phase = .idle ∧
    ∃ out, t.tx = s.tx ++ out ++ crcBytes s.params.crcOrder t.crc ++ [0xAF]

theorem frameCompleted_completeFrame {s u : State} {out : List Byte} (hseq : u.seq = s.seq)
    (hparams : u.params = s.params) (htx : u.tx = s.tx ++ out) : FrameCompleted s (completeFrame u) := by
  rw [completeFrame_eq]
  refine ⟨?_, rfl, out, ?_⟩
  · simp [hseq, BitVec.toNat_add]
  · simp [htx, hparams, Config.terminator]

theorem execEffect_seq {i : Instr} {s t : State} (h : ExecEffect i s t) : t.seq = s.seq ∨ FrameCompleted s t := by
  cases h with
  | answers r => exact .inl rfl
  | writesCrc c => exact .inl rfl
  | emitsWhole addr cmd =>
    rw [openFrame_eq]
    exact .inr (frameCompleted_completeFrame (s := s) rfl rfl rfl)
  | opens addr cmd len => exact .inl (by simp [openFrame_eq])
  | takes b => exact .inl (by simp [takeByte_eq])
  | takesLast b =>
    rw [takeByte_eq]
    exact .inr (frameCompleted_completeFrame (s := s) rfl rfl rfl)

/-- Settles O31: of a step's four kinds only a reset event and a completing instruction write `SEQ`. -/
theorem seqIsWrittenOnlyByCompletionAndReset : Obligations.SeqIsWrittenOnlyByCompletionAndReset := by
  intro s t h
  rcases step_cases h with ⟨hp, rfl⟩ | ⟨rest, hp, rfl⟩ | ⟨_, rest, _, hp, -, rfl⟩ | ⟨_, rest, i, hp, -, hx⟩ <;>
    rw [hp, List.head?]
  · exact .inr (.inl ⟨nofun, rfl⟩)
  · exact .inl ⟨rfl, rfl⟩
  · exact .inr (.inl ⟨nofun, rfl⟩)
  · rcases execEffect_seq (execEffect_of_exec hx) with same | completed
    · exact .inr (.inl ⟨nofun, same⟩)
    · exact .inr (.inr ⟨nofun, completed⟩)

/-- Settles O32: of the outcomes of an instruction, a bare answer keeps `CRC`, and each of the others names its writer. -/
theorem crcIsWrittenOnlyByItsWriters : Obligations.CrcIsWrittenOnlyByItsWriters := by
  intro i s t h changed
  cases execEffect_of_exec h with
  | answers r => exact absurd rfl changed
  | writesCrc c idle writer => exact .inl ⟨idle, writer.imp_right .inl⟩
  | emitsWhole addr cmd idle request => exact .inl ⟨idle, .inr (.inr (by rw [request]; rfl))⟩
  | opens addr cmd len idle fits nonzero request => exact .inl ⟨idle, .inr (.inr (by rw [request]; rfl))⟩
  | takes b busy notLast data => exact .inr ⟨busy, b, data, by simp [takeByte_eq]⟩
  | takesLast b busy last data => exact .inr ⟨busy, b, data, by simp [completeFrame_eq, takeByte_eq]⟩

/-! ## Reset and the reachable states (10_state.md R21, R22) -/

/-- Settles O40: R22 holds of a block just built, whatever its inputs, and every step keeps it and the parameters. -/
theorem reachableStatesKeepPhaseAndRemTogether : Obligations.ReachableStatesKeepPhaseAndRemTogether := by
  intro p inputs k t h
  have hbuilt : PhaseRemInv { State.built p with pending := inputs } := phaseRemInv_built p
  have hinv : PhaseRemInv t := run_keeps stepKeepsPhaseRemInvariant hbuilt h
  have hparams : t.params = p :=
    run_keeps (P := fun u => u.params = p) (fun _ _ hp hs => (step_params hs).trans hp) rfl h
  exact hparams ▸ hinv

/-- Settles O28: both are the values of 10_state.md R21 as written. -/
theorem resetStateRegisters : Obligations.ResetStateRegisters := by
  refine ⟨fun p => rfl, fun s => ?_⟩
  rw [resetEvent_eq]
  rfl

theorem streamInv_built (p : Params) : StreamInv (State.built p) :=
  ⟨phaseRemInv_built p, fun _ => ⟨[], by simp, rfl⟩, nofun⟩

/-- Settles O39: the block is idle with nothing missing, and the empty `TX` is the concatenation of no frames. -/
theorem builtBlockMeetsInvariants : Obligations.BuiltBlockMeetsInvariants := by
  intro p
  exact ⟨phaseRemInv_built p, runningChecksumInv_of_idle rfl rfl, streamInv_built p⟩

end Sys2Proof.Machine

/-!
PROOFS. Emission and order, 20_memory.md. First the layer that the proofs share: a step as an equation per kind of
input, what an instruction emits as one relation with a named case per width, and which words of the port are FRM.DATA.
-/
namespace Sys2Proof.Machine

/-! ## A step, input by input (20_memory.md R32) -/

theorem step_nothing_waiting {s : State} (hp : s.pending = []) : step s = .next s := by
  simp only [step, takeInput, hp]

theorem step_reset {s : State} {rest : List HostInput} (hp : s.pending = .reset :: rest) :
    step s = .next (resetEvent { s with pending := rest }) := by
  simp only [step, takeInput, hp]

theorem step_word {s : State} {e : Encoded} {rest : List HostInput} (hp : s.pending = .word e :: rest) :
    step s = runWord e { s with pending := rest } := by
  simp only [step, takeInput, hp]

theorem runWord_instr {e : Encoded} {i : Instr} (hd : decode e = .instr i) (s : State) : runWord e s = exec i s := by
  simp only [runWord, hd]

theorem runWord_illegal {e : Encoded} {why : DecodeError} (hd : decode e = .illegal why) (s : State) :
    runWord e s = .next (s.raise .illegalOp) := by
  simp only [runWord, hd]

/-- Settles O47: the equations of a step, with that of the port for a word. -/
theorem stepRunsTheDecodedInstruction : Obligations.StepRunsTheDecodedInstruction := by
  intro s e rest
  refine ⟨fun i hp hd => ?_, fun why hp hd => ?_, step_reset, step_nothing_waiting⟩
  · rw [step_word hp, runWord_instr hd]
  · rw [step_word hp, runWord_illegal hd]
    rfl

/-! ## What each instruction emits (20_memory.md R29) -/

/-- The bytes an instruction can emit, guards included: none, a whole frame without payload, the head of a frame, a
payload byte, or the last payload byte and the end of its frame. -/
inductive Emission (i : Instr) (phase : Phase) : List Byte → Prop
  | nothing : Emission i phase []
  | wholeFrame (addr cmd : Byte) (out : List Byte) (idle : phase = .idle)
      (request : frameRequest i = some (addr, cmd, 0)) (width : out.length = 11) : Emission i phase out
  | head (addr cmd : Byte) (len : Word16) (out : List Byte) (idle : phase = .idle) (nonzero : len ≠ 0)
      (request : frameRequest i = some (addr, cmd, len)) (width : out.length = 8) : Emission i phase out
  | dataByte (b : Byte) (busy : phase = .payload) (data : i = .frmData b) : Emission i phase [b]
  | lastByte (b : Byte) (ending : List Byte) (busy : phase = .payload) (data : i = .frmData b)
      (width : ending.length = 3) : Emission i phase (b :: ending)

theorem openFrame_tx (addr cmd : Byte) (len : Word16) (s : State) :
    (openFrame addr cmd len s).tx = s.tx ++ (Config.header ++ countedBytes s.seq addr cmd len) := by
  rw [openFrame_eq]

theorem takeByte_tx (b : Byte) (s : State) : (takeByte b s).tx = s.tx ++ [b] := by
  rw [takeByte_eq]

/-- The end of a frame is three bytes: the checksum and the terminator (41_frame.md R76). -/
theorem completeFrame_tx (s : State) : ∃ ending, (completeFrame s).tx = s.tx ++ ending ∧ ending.length = 3 := by
  rw [completeFrame_eq]
  exact ⟨_, rfl, by simp⟩

/-- `TX` after an instruction is `TX` before it and what the instruction emits. -/
theorem execEffect_emits {i : Instr} {s t : State} (h : ExecEffect i s t) :
    ∃ out, t.tx = s.tx ++ out ∧ Emission i s.phase out := by
  cases h with
  | answers r => exact ⟨[], by simp, .nothing⟩
  | writesCrc c => exact ⟨[], by simp, .nothing⟩
  | emitsWhole addr cmd idle request =>
    obtain ⟨ending, htx, width⟩ := completeFrame_tx (openFrame addr cmd 0 s)
    rw [openFrame_tx, List.append_assoc] at htx
    exact ⟨_, htx, .wholeFrame addr cmd _ idle request (by simp [width, Config.header])⟩
  | opens addr cmd len idle fits nonzero request =>
    exact ⟨_, openFrame_tx addr cmd len s, .head addr cmd len _ idle nonzero request rfl⟩
  | takes b busy notLast data => exact ⟨[b], takeByte_tx b s, .dataByte b busy data⟩
  | takesLast b busy last data =>
    obtain ⟨ending, htx, width⟩ := completeFrame_tx (takeByte b s)
    rw [takeByte_tx, List.append_assoc] at htx
    exact ⟨b :: ending, htx, .lastByte b ending busy data width⟩

/-- Settles O14: the widths of the cases of an emission. -/
theorem emissionWidths : Obligations.EmissionWidths := by
  intro i s t h
  obtain ⟨out, htx, emission⟩ := execEffect_emits (execEffect_of_exec h)
  refine ⟨out, htx, ?_⟩
  cases emission with
  | nothing =>
    split
    · exact .inl rfl
    · exact .inl rfl
    · rfl
  | wholeFrame addr cmd out idle request width =>
    rw [request]
    exact .inr (.inr ⟨rfl, width⟩)
  | head addr cmd len out idle nonzero request width =>
    rw [request]
    exact .inr (.inl ⟨nonzero, width⟩)
  | dataByte b busy data =>
    subst data
    exact .inr (.inl rfl)
  | lastByte b ending busy data width =>
    subst data
    exact .inr (.inr ⟨by simp [width], rfl⟩)

/-- What a step emits is what the instruction it runs emits: an input that is not one emits nothing. -/
theorem step_emits {s t : State} (h : step s = .next t) :
    ∃ out, t.tx = s.tx ++ out ∧
      (out = [] ∨ ∃ e rest i, s.pending = .word e :: rest ∧ decode e = .instr i ∧ Emission i s.phase out) := by
  rcases step_cases h with ⟨-, rfl⟩ | ⟨_, -, rfl⟩ | ⟨_, _, _, -, -, rfl⟩ | ⟨e, rest, i, hp, hd, hx⟩
  · exact ⟨[], by simp, .inl rfl⟩
  · exact ⟨[], by simp [resetEvent_eq], .inl rfl⟩
  · exact ⟨[], by simp, .inl rfl⟩
  · obtain ⟨out, htx, emission⟩ := execEffect_emits (execEffect_of_exec hx)
    exact ⟨out, htx, .inr ⟨e, rest, i, hp, hd, emission⟩⟩

/-- Settles O33: a step emits after the old `TX`, and keeps the parameters. -/
theorem txOnlyGrows : Obligations.TxOnlyGrows := by
  intro s t h
  obtain ⟨out, htx, -⟩ := step_emits h
  exact ⟨step_params h, out, htx⟩

/-- Inside a frame what is emitted begins with the byte of a FRM.DATA. -/
theorem Emission.data_of_payload {i : Instr} {out : List Byte} (h : Emission i .payload out)
    (nonempty : out ≠ []) : ∃ b, i = .frmData b ∧ out.head? = some b := by
  cases h with
  | nothing => exact absurd rfl nonempty
  | wholeFrame addr cmd out idle => cases idle
  | head addr cmd len out idle => cases idle
  | dataByte b _ data => exact ⟨b, data, rfl⟩
  | lastByte b ending _ data => exact ⟨b, data, rfl⟩

/-- No frame head is FRM.DATA: the row of a head encodes as a head, and FRM.DATA as an operation word. -/
theorem decodeFrameHead_ne_frmData (h : FrameHead) (b : Byte) : decodeFrameHead h ≠ .instr (.frmData b) := by
  intro hd
  unfold decodeFrameHead at hd
  split at hd
  · cases hd
  · split at hd
    · cases hd
    · injection hd with row
      have encoded := encode_frameRow (seqField h) (addressField h) (commandField h) (lengthField h)
      rw [row] at encoded
      cases encoded

/-- Settles O34: of the emissions only those of FRM.DATA have the guard PAYLOAD, and only an operation word decodes to
FRM.DATA. -/
theorem onlyDataEmitsInsideAFrame : Obligations.OnlyDataEmitsInsideAFrame := by
  intro s t out busy h htx nonempty
  obtain ⟨out', htx', emitted⟩ := step_emits h
  obtain rfl : out' = out := List.append_cancel_left (htx'.symm.trans htx)
  obtain ⟨e, rest, i, hp, hd, emission⟩ := emitted.resolve_left nonempty
  obtain ⟨b, rfl, first⟩ := (busy ▸ emission).data_of_payload nonempty
  cases e with
  | op w => exact ⟨w, b, rest, hp, hd, first⟩
  | frame f => exact absurd hd (decodeFrameHead_ne_frmData f b)

/-! ## Later inputs (20_memory.md R32) -/

/-- A step with an input waiting takes exactly that input, and does the same whatever waits behind it. -/
theorem step_withPending {s t : State} {x : HostInput} {rest : List HostInput} (hp : s.pending = x :: rest)
    (h : step s = .next t) (q : List HostInput) :
    t.pending = rest ∧ step { s with pending := x :: q } = .next { t with pending := q } := by
  rcases step_cases h with ⟨hp', -⟩ | ⟨_, hp', rfl⟩ | ⟨_, _, _, hp', hd, rfl⟩ | ⟨_, _, i, hp', hd, hx⟩ <;>
    cases hp.symm.trans hp'
  · refine ⟨rfl, ?_⟩
    rw [step_reset rfl]
    rfl
  · refine ⟨rfl, ?_⟩
    rw [step_word rfl, runWord_illegal hd]
    rfl
  · obtain ⟨u, _, hu, -, hpending, -⟩ := exec_answers i { s with pending := rest }
    cases hu.symm.trans hx
    refine ⟨hpending, ?_⟩
    rw [step_word rfl, runWord_instr hd]
    exact exec_withPending (s := { s with pending := rest }) q hx

/-- Settles O48, by induction on the inputs taken: each step takes the first of them. -/
theorem laterInputsDoNotMatter : Obligations.LaterInputsDoNotMatter := by
  intro xs ys s t hp h
  induction xs generalizing s with
  | nil =>
    cases h
    rfl
  | cons x xs ih =>
    obtain ⟨u, hsu, hut⟩ := step_of_run_succ h
    obtain ⟨hu, hstep⟩ := step_withPending hp hsu (xs ++ ys)
    exact (run_succ hstep).trans (ih u hu hut)

/-! ## Operations issued twice (20_memory.md R29) -/

theorem runInstrs_cons {i : Instr} {s t : State} (h : exec i s = .next t) (is : List Instr) :
    runInstrs (i :: is) s = runInstrs is t := by
  simp only [runInstrs, h]

theorem runInstrs_single {i : Instr} {s t : State} (h : exec i s = .next t) : runInstrs [i] s = .next t :=
  runInstrs_cons h []

theorem runInstrs_pair {i j : Instr} {s t u : State} (hi : exec i s = .next t) (hj : exec j t = .next u) :
    runInstrs [i, j] s = .next u :=
  (runInstrs_cons hi [j]).trans (runInstrs_single hj)

/-- An instruction that answers a value of the block and does nothing else answers it again, when the value does not
depend on the responses given. -/
theorem read_twice {i : Instr} {value : State → BitVec 32}
    (reads : ∀ s, exec i s = .next (s.respond (.okValue (value s)))) (same : ∀ s r, value (s.respond r) = value s)
    (s : State) :
    ∃ t v, runInstrs [i, i] s = .next t ∧ t.responses = s.responses ++ [.okValue v, .okValue v] ∧
      t.registers = s.registers ∧ t.tx = s.tx :=
  ⟨_, value s, runInstrs_pair (reads s) (reads _), by simp [same], rfl, rfl⟩

theorem exec_crcInit_idle {s : State} (idle : s.phase = .idle) :
    exec .crcInit s = .next ((s.setCrc Config.crcInit).respond .ok) := by
  simp [exec, execCrcInit, idle]

theorem exec_crcInit_payload {s : State} (busy : s.phase = .payload) : exec .crcInit s = .next (s.raise .busy) := by
  simp [exec, execCrcInit, busy]

/-- CRC.INIT again leaves the registers as once: in IDLE it writes the same value, in PAYLOAD both are refused. -/
theorem crcInit_twice (s : State) :
    ∃ t u, runInstrs [.crcInit] s = .next t ∧ runInstrs [.crcInit, .crcInit] s = .next u ∧
      u.registers = t.registers ∧ u.tx = s.tx ∧ t.tx = s.tx := by
  cases hp : s.phase with
  | idle =>
    have once := exec_crcInit_idle hp
    exact ⟨_, _, runInstrs_single once, runInstrs_pair once (exec_crcInit_idle hp), rfl, rfl, rfl⟩
  | payload =>
    have once := exec_crcInit_payload hp
    exact ⟨_, _, runInstrs_single once, runInstrs_pair once (exec_crcInit_payload hp), rfl, rfl, rfl⟩

/-- Settles O8: CRC.RD reads `CRC` and STAT.RD the status word, neither of which a response changes. -/
theorem readsAndInitAreIdempotent : Obligations.ReadsAndInitAreIdempotent := by
  intro s
  exact ⟨read_twice (value := fun s => s.crc.zeroExtend 32) (fun _ => rfl) (fun _ _ => rfl) s,
    read_twice (value := State.statusWord) (fun _ => rfl) (fun _ _ => rfl) s, crcInit_twice s⟩

end Sys2Proof.Machine

/-!
PROOFS. Encoding, 30_encoding.md. First the decoder said once, apart from its branches: decoding is the inverse of
encoding on the well-formed instructions. The match and mask rows then only have to name the words that instructions
encode as. Then frames as byte sequences, and the reader.
-/
namespace Sys2Proof

/-! ## Operation words (30_encoding.md R43, R44) -/

theorem opWord_inj {op a b op' a' b' : Byte} {c c' : Word16} :
    opWord op a b c = opWord op' a' b' c' ↔ op = op' ∧ a = a' ∧ b = b' ∧ c = c' := by
  refine ⟨fun h => ⟨?_, ?_, ?_, ?_⟩, ?_⟩
  · simpa using congrArg opField h
  · simpa using congrArg aField h
  · simpa using congrArg bField h
  · simpa using congrArg cField h
  · rintro ⟨rfl, rfl, rfl, rfl⟩
    rfl

/-- The word has no operand: every field but `OP` is 0. -/
theorem opWord_eq_iff_noOperand {op : Byte} {w : OpWord} :
    opWord op 0 0 0 = w ↔ op = opField w ∧ aField w = 0 ∧ bField w = 0 ∧ cField w = 0 := by
  rw [← opWord_fields w, opWord_inj]
  simp [eq_comm]

theorem dataC_eq_cField_iff {w : OpWord} : dataC (dataField w) = cField w ↔ dataHighField w = 0 := by
  have hc := congrArg BitVec.toNat (cField_eq w)
  rw [append_toNat] at hc
  rw [← BitVec.toNat_inj, ← BitVec.toNat_inj, dataC_toNat, hc, show (0 : Byte).toNat = 0 from rfl]
  omega

/-- The word has a data byte as its operand: `A`, `B` and `C[15:8]` are 0. -/
theorem opWord_eq_iff_dataByte {op : Byte} {w : OpWord} :
    opWord op 0 0 (dataC (dataField w)) = w ↔
      op = opField w ∧ aField w = 0 ∧ bField w = 0 ∧ dataHighField w = 0 := by
  conv_lhs => rhs; rw [← opWord_fields w]
  rw [opWord_inj, dataC_eq_cField_iff, eq_comm (a := 0), eq_comm (a := 0)]

theorem opWord_eq_iff_fields {op : Byte} {w : OpWord} :
    opWord op (aField w) (bField w) (cField w) = w ↔ op = opField w := by
  conv_lhs => rhs; rw [← opWord_fields w]
  simp [opWord_inj]

/-! ## The operation decoder is the inverse of the encoder -/

theorem decodeNoOperand_eq_instr_iff {w : OpWord} {i j : Instr} :
    decodeNoOperand w j = .instr i ↔ j = i ∧ opWord (opField w) 0 0 0 = w := by
  rw [opWord_eq_iff_noOperand, decodeNoOperand]
  split <;> simp_all

theorem decodeDataByte_eq_instr_iff {w : OpWord} {f : Byte → Instr} {i : Instr} :
    decodeDataByte w f = .instr i ↔
      f (dataField w) = i ∧ opWord (opField w) 0 0 (dataC (dataField w)) = w := by
  rw [opWord_eq_iff_dataByte, decodeDataByte]
  split <;> simp_all

theorem encode_of_decodeNoOperand {w : OpWord} {i j : Instr} (hj : encode j = .op (opWord (opField w) 0 0 0))
    (h : decodeNoOperand w j = .instr i) : encode i = .op w := by
  obtain ⟨rfl, hw⟩ := decodeNoOperand_eq_instr_iff.mp h
  rw [hj, hw]

theorem encode_of_decodeDataByte {w : OpWord} {f : Byte → Instr} {i : Instr}
    (hf : ∀ b, encode (f b) = .op (opWord (opField w) 0 0 (dataC b))) (h : decodeDataByte w f = .instr i) :
    encode i = .op w := by
  obtain ⟨rfl, hw⟩ := decodeDataByte_eq_instr_iff.mp h
  rw [hf, hw]

theorem encode_of_decodeOp {w : OpWord} {i : Instr} (h : decodeOp w = .instr i) : encode i = .op w := by
  unfold decodeOp at h
  split_ifs at h with op op op op op op
  · exact encode_of_decodeNoOperand (by rw [op, encode]) h
  · exact encode_of_decodeDataByte (fun b => by rw [op, encode]) h
  · exact encode_of_decodeNoOperand (by rw [op, encode]) h
  · cases h
    rw [encode, ← op, opWord_fields]
  · exact encode_of_decodeDataByte (fun b => by rw [op, encode]) h
  · exact encode_of_decodeNoOperand (by rw [op, encode]) h

theorem decodeNoOperand_opWord (op : Byte) (i : Instr) : decodeNoOperand (opWord op 0 0 0) i = .instr i :=
  decodeNoOperand_eq_instr_iff.mpr ⟨rfl, by rw [opField_opWord]⟩

theorem decodeDataByte_opWord (op b : Byte) (f : Byte → Instr) :
    decodeDataByte (opWord op 0 0 (dataC b)) f = .instr (f b) :=
  decodeDataByte_eq_instr_iff.mpr ⟨by rw [dataField_dataC], by rw [opField_opWord, dataField_dataC]⟩

theorem decodeOp_of_encode {w : OpWord} {i : Instr} (h : encode i = .op w) : decodeOp w = .instr i := by
  cases i <;> cases h <;> rw [decodeOp, opField_opWord]
  case crcInit => exact decodeNoOperand_opWord opCrcInit _
  case crcUpd b => exact decodeDataByte_opWord opCrcUpd b _
  case crcRd => exact decodeNoOperand_opWord opCrcRd _
  case frmStart addr cmd len =>
    rw [aField_opWord, bField_opWord, cField_opWord]
    rfl
  case frmData b => exact decodeDataByte_opWord opFrmData b _
  case statRd => exact decodeNoOperand_opWord opStatRd _

/-- The operation decoder reads exactly the words that operations encode as (30_encoding.md R44, R46). -/
theorem decodeOp_eq_instr_iff {w : OpWord} {i : Instr} : decodeOp w = .instr i ↔ encode i = .op w :=
  ⟨encode_of_decodeOp, decodeOp_of_encode⟩

theorem wf_of_encode_op {w : OpWord} {i : Instr} (h : encode i = .op w) : i.wf = true := by
  cases i <;> cases h <;> rfl

/-! ## Frame heads (30_encoding.md R50) -/

theorem frameRow_wf_of_listed (seq addr : Byte) (len : Word16) :
    ∀ cmd ∈ listedCommands, (frameRow seq addr cmd len).wf = true := by
  simp [listedCommands, frameRow, Instr.wf]

theorem frameRow_of_unlisted (seq addr : Byte) {cmd : Byte} (len : Word16) (h : cmd ∉ listedCommands) :
    frameRow seq addr cmd len = .frame seq addr cmd len := by
  simp only [listedCommands, List.mem_cons, not_or] at h
  simp only [frameRow, h, if_false]

theorem frameRow_wf (seq addr cmd : Byte) (len : Word16) : (frameRow seq addr cmd len).wf = true := by
  by_cases listed : cmd ∈ listedCommands
  · exact frameRow_wf_of_listed seq addr len cmd listed
  · rw [frameRow_of_unlisted seq addr len listed]
    simpa [Instr.wf] using listed

theorem decodeFrameHead_frameHead (seq addr cmd : Byte) (len : Word16) :
    decodeFrameHead (frameHead seq addr cmd len) = .instr (frameRow seq addr cmd len) := by
  simp [decodeFrameHead]

/-- A head decodes exactly when its HEADER and RESERVED are those of a frame. -/
theorem decodeFrameHead_eq_instr_iff {h : FrameHead} {i : Instr} :
    decodeFrameHead h = .instr i ↔
      (headerField h = 0xAA55 ∧ reservedField h = 0) ∧
        frameRow (seqField h) (addressField h) (commandField h) (lengthField h) = i := by
  unfold decodeFrameHead
  split_ifs <;> simp_all

theorem encode_of_decodeFrameHead {h : FrameHead} {i : Instr} (hd : decodeFrameHead h = .instr i) :
    encode i = .frame h := by
  obtain ⟨⟨header, reserved⟩, rfl⟩ := decodeFrameHead_eq_instr_iff.mp hd
  rw [encode_frameRow, frameHead_fields header reserved]

theorem wf_of_decodeFrameHead {h : FrameHead} {i : Instr} (hd : decodeFrameHead h = .instr i) : i.wf = true := by
  obtain ⟨-, rfl⟩ := decodeFrameHead_eq_instr_iff.mp hd
  exact frameRow_wf _ _ _ _

theorem decodeFrameHead_of_encode {h : FrameHead} {i : Instr} (wf : i.wf = true) (he : encode i = .frame h) :
    decodeFrameHead h = .instr i := by
  cases i <;> cases he
  case frame seq addr cmd len =>
    have unlisted : cmd ∉ listedCommands := by simpa [Instr.wf] using wf
    rw [decodeFrameHead_frameHead, frameRow_of_unlisted seq addr len unlisted]
  all_goals exact decodeFrameHead_frameHead _ _ _ _

/-! ## The round trips -/

/-- Settles O42: in each format the word of an instruction has the fields of its row. -/
theorem decodeOfEncode : Obligations.DecodeOfEncode := by
  intro i wf
  cases he : encode i with
  | op w => exact decodeOp_of_encode he
  | frame h => exact decodeFrameHead_of_encode wf he

/-- Settles O43: in each format a word is determined by its fields, and those that no operand holds are checked. -/
theorem encodeOfDecode : Obligations.EncodeOfDecode := by
  intro e i hd
  cases e with
  | op w =>
    have he := encode_of_decodeOp hd
    exact ⟨wf_of_encode_op he, he⟩
  | frame h => exact ⟨wf_of_decodeFrameHead hd, encode_of_decodeFrameHead hd⟩

/-! ## The six rows of match and mask (30_encoding.md R44) -/

theorem and_0xFF (b : Byte) : b &&& 0xFF = b := BitVec.and_allOnes

/-- The row of an operation without operands. -/
theorem and_noOperandMask_iff {w : OpWord} {op : Byte} :
    w &&& 0xFFFFFFFFFF = opWord op 0 0 0 ↔ opWord op 0 0 0 = w := by
  rw [show (0xFFFFFFFFFF : OpWord) = BitVec.allOnes 40 from rfl, BitVec.and_allOnes, eq_comm]

theorem and_0xFF00_eq_zero_iff (w : OpWord) : cField w &&& 0xFF00 = 0 ↔ dataHighField w = 0 := by
  rw [cField_eq, show (0xFF00 : Word16) = (0xFF : Byte) ++ (0 : Byte) from rfl, BitVec.and_append, and_0xFF,
    ← BitVec.toNat_inj, append_toNat]
  simp [← BitVec.toNat_inj]

/-- The row of an operation with a data byte. -/
theorem and_dataByteMask_iff {w : OpWord} {op : Byte} :
    w &&& 0xFFFFFFFF00 = opWord op 0 0 0 ↔ opWord op 0 0 (dataC (dataField w)) = w := by
  rw [opWord_eq_iff_dataByte]
  conv_lhs => lhs; rw [← opWord_fields w, show (0xFFFFFFFF00 : OpWord) = opWord 0xFF 0xFF 0xFF 0xFF00 by decide]
  rw [opWord_and, opWord_inj, and_0xFF00_eq_zero_iff, and_0xFF, and_0xFF, and_0xFF]
  simp [eq_comm]

/-- The row of an operation with operands in all fields. -/
theorem and_opMask_iff {w : OpWord} {op : Byte} :
    w &&& 0xFF00000000 = opWord op 0 0 0 ↔ opWord op (aField w) (bField w) (cField w) = w := by
  rw [opWord_eq_iff_fields]
  conv_lhs => lhs; rw [← opWord_fields w, show (0xFF00000000 : OpWord) = opWord 0xFF 0 0 0 by decide]
  rw [opWord_and, opWord_inj, and_0xFF]
  simp [eq_comm]

theorem opField_mem_of_encode {i : Instr} {w : OpWord} (h : encode i = .op w) :
    opField w ∈ ([0x01, 0x02, 0x03, 0x10, 0x11, 0x20] : List Byte) := by
  cases i <;> cases h
  all_goals
    rw [opField_opWord]
    decide

/-- A word in two rows has the pattern of each under the mask of the other. -/
theorem MatchMask.not_covers_both {n : Nat} {r q : MatchMask n} (h : r.pattern &&& q.mask ≠ q.pattern &&& r.mask)
    (w : BitVec n) : ¬ (r.covers w = true ∧ q.covers w = true) := by
  rintro ⟨hr, hq⟩
  rw [MatchMask.covers, beq_iff_eq] at hr hq
  rw [← hr, ← hq, BitVec.and_assoc, BitVec.and_assoc, BitVec.and_comm r.mask] at h
  exact h rfl

/-- Settles O44: each row names the words of its operation, and the patterns of any two rows differ under both masks. -/
theorem operationTableIsTheDecoder : Obligations.OperationTableIsTheDecoder := by
  refine ⟨fun w => ?_, fun w i h => opField_mem_of_encode (encode_of_decodeOp h), ?_⟩
  · simp only [decodeOp_eq_instr_iff, encode, Encoded.op.injEq]
    exact ⟨and_noOperandMask_iff (op := opCrcInit), and_dataByteMask_iff (op := opCrcUpd),
      and_noOperandMask_iff (op := opCrcRd), and_opMask_iff (op := opFrmStart), and_dataByteMask_iff (op := opFrmData),
      and_noOperandMask_iff (op := opStatRd)⟩
  · have separated : opRows.Pairwise fun r q => r.pattern &&& q.mask ≠ q.pattern &&& r.mask := by decide
    exact separated.imp MatchMask.not_covers_both

/-! ## The frame rows of match and mask (30_encoding.md R50) -/

theorem headWord_toNat (header : Word16) (seq addr reserved cmd : Byte) (len : Word16) :
    (headWord header seq addr reserved cmd len).toNat =
      header.toNat * 2 ^ 48 + seq.toNat * 2 ^ 40 + addr.toNat * 2 ^ 32 + reserved.toNat * 2 ^ 24 +
        cmd.toNat * 2 ^ 16 + len.toNat := by
  unfold headWord
  rw [append_toNat, append_toNat, append_toNat, append_toNat, append_toNat]
  omega

/-- A head is its six fields. -/
theorem headWord_fields (h : FrameHead) :
    headWord (headerField h) (seqField h) (addressField h) (reservedField h) (commandField h) (lengthField h) = h := by
  apply BitVec.eq_of_toNat_eq
  rw [headWord_toNat, headerField, seqField, addressField, reservedField, commandField, lengthField, extract_toNat,
    extract_toNat, extract_toNat, extract_toNat, extract_toNat, extract_toNat]
  omega

theorem headWord_inj {header header' : Word16} {seq addr reserved cmd seq' addr' reserved' cmd' : Byte}
    {len len' : Word16} :
    headWord header seq addr reserved cmd len = headWord header' seq' addr' reserved' cmd' len' ↔
      header = header' ∧ seq = seq' ∧ addr = addr' ∧ reserved = reserved' ∧ cmd = cmd' ∧ len = len' := by
  rw [← BitVec.toNat_inj, headWord_toNat, headWord_toNat]
  simp only [← BitVec.toNat_inj]
  omega

theorem and_0xFFFF (w : Word16) : w &&& 0xFFFF = w := BitVec.and_allOnes

theorem and_genericMask_iff {h : FrameHead} :
    h &&& 0xFFFF0000FF000000 = 0xAA55000000000000 ↔ headerField h = 0xAA55 ∧ reservedField h = 0 := by
  rw [show (0xFFFF0000FF000000 : FrameHead) = headWord 0xFFFF 0 0 0xFF 0 0 by decide,
    show (0xAA55000000000000 : FrameHead) = headWord 0xAA55 0 0 0 0 0 by decide]
  conv_lhs => lhs; rw [← headWord_fields h]
  rw [headWord_and, headWord_inj, and_0xFFFF, and_0xFF]
  simp

theorem commandRow_covers_iff {cmd : Byte} {h : FrameHead} :
    (commandRow cmd).covers h = true ↔ headerField h = 0xAA55 ∧ reservedField h = 0 ∧ commandField h = cmd := by
  rw [MatchMask.covers, beq_iff_eq, commandRow_pattern, commandRow_mask, frameHead]
  conv_lhs => lhs; rw [← headWord_fields h]
  rw [headWord_and, headWord_inj, and_0xFFFF, and_0xFF, and_0xFF]
  simp

theorem decodeFrameHead_eq_frameRow_iff {h : FrameHead} {seq addr cmd : Byte} {len : Word16} :
    decodeFrameHead h = .instr (frameRow seq addr cmd len) ↔ frameHead seq addr cmd len = h := by
  refine ⟨fun hd => ?_, ?_⟩
  · have he := encode_of_decodeFrameHead hd
    rw [encode_frameRow] at he
    exact Encoded.frame.inj he
  · rintro rfl
    exact decodeFrameHead_frameHead seq addr cmd len

/-- Settles O45: the generic row names the HEADER and RESERVED of a frame, and a COMMAND value's row that value too. -/
theorem frameTableIsTheDecoder : Obligations.FrameTableIsTheDecoder := by
  intro h
  refine ⟨?_, fun cmd _ => ?_⟩
  · simp only [and_genericMask_iff, decodeFrameHead_eq_instr_iff, exists_and_left, exists_eq', and_true]
  · rw [decodeFrameHead_eq_frameRow_iff]
    refine ⟨fun covered => ?_, fun head => ?_⟩
    · obtain ⟨header, reserved, rfl⟩ := commandRow_covers_iff.mp covered
      exact frameHead_fields header reserved
    · rw [← head]
      exact commandRow_frameHead _ _ cmd _

end Sys2Proof
namespace Sys2Proof.Machine

/-! ## Words at the port (30_encoding.md R43) -/

/-- Settles O26: a word that decodes runs one instruction, which answers once, and any other is refused. -/
theorem everyWordIsAnsweredOnce : Obligations.EveryWordIsAnsweredOnce := by
  intro s e rest hp
  rw [step_word hp]
  cases hd : decode e with
  | instr i =>
    obtain ⟨t, r, ht, hr, hq, -⟩ := exec_answers i { s with pending := rest }
    exact ⟨t, r, (runWord_instr hd _).trans ht, hr, hq⟩
  | illegal why => exact ⟨_, .err .illegalOp, runWord_illegal hd _, rfl, rfl⟩

/-! ## The head of a frame as bytes (30_encoding.md R41, R50) -/

theorem headOfBytes_eq_frameHead (seq addr cmd : Byte) (len : Word16) :
    headOfBytes 0xAA 0x55 seq addr 0x00 cmd (hi8 len) (lo8 len) = frameHead seq addr cmd len := by
  apply BitVec.eq_of_toNat_eq
  rw [frameHead_toNat, headOfBytes]
  iterate 7 rw [append_toNat]
  rw [hi8_toNat, lo8_toNat, show (0xAA : Byte).toNat = 0xAA from rfl, show (0x55 : Byte).toNat = 0x55 from rfl,
    show (0 : Byte).toNat = 0 from rfl]
  omega

/-- The frame decoder reads the first eight bytes of a frame, whatever follows. -/
theorem decodeFrameBytes_counted (seq addr cmd : Byte) (len : Word16) (more : List Byte) :
    decodeFrameBytes (Config.header ++ countedBytes seq addr cmd len ++ more) =
      .instr (frameRow seq addr cmd len) := by
  rw [← decodeFrameHead_frameHead, ← headOfBytes_eq_frameHead]
  rfl

/-- An accepted FRM.START emits the header and the six counted bytes first (41_frame.md R75). -/
theorem startFrame_accepted_tx (addr cmd : Byte) {len : Word16} {s : State} (idle : s.phase = .idle)
    (fits : len ≤ s.params.maxPayload) :
    ∃ more, (startFrame addr cmd len s).tx =
      s.tx ++ (Config.header ++ countedBytes s.seq addr cmd len ++ more) := by
  rcases startFrame_cases addr cmd len s with ⟨busy, -⟩ | ⟨-, large, -⟩ | ⟨-, -, -, e⟩ | ⟨-, -, -, e⟩
  · exact absurd (idle.symm.trans busy) (by decide)
  · exact absurd large (BitVec.not_lt.mpr fits)
  · obtain ⟨ending, htx, -⟩ := completeFrame_tx (openFrame addr cmd len s)
    rw [openFrame_tx, List.append_assoc] at htx
    exact ⟨ending, by rw [e, State.respond_tx, htx]⟩
  · exact ⟨[], by rw [e, State.respond_tx, State.setPhase_tx, openFrame_tx, List.append_nil]⟩

/-- Settles O18: the first eight bytes emitted are the head with these fields. -/
theorem emittedHeadDecodesToItsRow : Obligations.EmittedHeadDecodesToItsRow := by
  intro addr cmd len s idle fits
  obtain ⟨more, htx⟩ := startFrame_accepted_tx addr cmd idle (BitVec.le_def.mpr fits)
  exact ⟨_, _, rfl, htx, decodeFrameBytes_counted s.seq addr cmd len more⟩

/-! ## Frames offset by offset (30_encoding.md R41) -/

/-- A frame: its first eight bytes one by one, the payload, the CRC field and the terminator. -/
theorem frameBytes_eq (o : CrcOrder) (seq addr cmd : Byte) (p : List Byte) :
    frameBytes o seq addr cmd p =
      0xAA :: 0x55 :: seq :: addr :: 0x00 :: cmd :: hi8 (payloadLength p) :: lo8 (payloadLength p) ::
        (p ++ (crcBytes o (crc16 (body seq addr cmd p)) ++ [0xAF])) := by
  simp [frameBytes, body, countedBytes, Config.header, Config.reserved, Config.terminator]

theorem body_eq (seq addr cmd : Byte) (p : List Byte) :
    body seq addr cmd p = [seq, addr, 0x00, cmd, hi8 (payloadLength p), lo8 (payloadLength p)] ++ p := rfl

theorem body_length (seq addr cmd : Byte) (p : List Byte) : (body seq addr cmd p).length = 6 + p.length := by
  rw [body, List.length_append, countedBytes_length]

/-- The checksummed span is offsets 2 to `7 + n`. -/
theorem frameBytes_span (o : CrcOrder) (seq addr cmd : Byte) (p : List Byte) :
    ((frameBytes o seq addr cmd p).drop 2).take (6 + p.length) = body seq addr cmd p := by
  rw [frameBytes, List.append_assoc, List.append_assoc, List.drop_left' (by rfl),
    List.take_left' (body_length seq addr cmd p)]

theorem payloadLength_toNat {p : List Byte} (short : p.length ≤ 65535) : (payloadLength p).toNat = p.length := by
  rw [payloadLength, BitVec.toNat_ofNat]
  omega

theorem hi8_payloadLength {p : List Byte} (short : p.length ≤ 65535) :
    hi8 (payloadLength p) = BitVec.ofNat 8 (p.length / 256) := by
  apply BitVec.eq_of_toNat_eq
  rw [hi8_toNat, payloadLength_toNat short, BitVec.toNat_ofNat]
  omega

theorem lo8_payloadLength {p : List Byte} (short : p.length ≤ 65535) :
    lo8 (payloadLength p) = BitVec.ofNat 8 p.length := by
  apply BitVec.eq_of_toNat_eq
  rw [lo8_toNat, payloadLength_toNat short, BitVec.toNat_ofNat]

/-- From offset 8 on stand the payload, the CRC field and the terminator. -/
theorem getElem?_frameBytes_add_eight (o : CrcOrder) (seq addr cmd : Byte) (p : List Byte) (k : Nat) :
    (frameBytes o seq addr cmd p)[8 + k]? =
      (p ++ (crcBytes o (crc16 (body seq addr cmd p)) ++ [0xAF]))[k]? := by
  rw [frameBytes_eq, Nat.add_comm]
  rfl

/-- From offset `8 + n` on stand the CRC field and the terminator. -/
theorem getElem?_frameBytes_ending (o : CrcOrder) (seq addr cmd : Byte) (p : List Byte) (k : Nat) :
    (frameBytes o seq addr cmd p)[8 + k + p.length]? = (crcBytes o (crc16 (body seq addr cmd p)) ++ [0xAF])[k]? := by
  rw [Nat.add_assoc, getElem?_frameBytes_add_eight, Nat.add_comm, List.getElem?_append_right (Nat.le_add_right _ _),
    Nat.add_sub_cancel_left]

/-- Settles O50: the offsets before the payload, inside it and after it. -/
theorem frameFieldTable : Obligations.FrameFieldTable := by
  intro o seq addr cmd p short f n c
  have span : c = crc16 (body seq addr cmd p) := congrArg crc16 (frameBytes_span o seq addr cmd p)
  have ending : ∀ k, f[8 + k + n]? = (crcBytes o c ++ [0xAF])[k]? := fun k => by
    rw [span]
    exact getElem?_frameBytes_ending o seq addr cmd p k
  refine ⟨frameBytes_length o seq addr cmd p, rfl, rfl, rfl, rfl, rfl, rfl, ?_, ?_, fun k hk => ?_, ?_, ?_, ?_⟩
  · exact congrArg some (hi8_payloadLength short)
  · exact congrArg some (lo8_payloadLength short)
  · rw [getElem?_frameBytes_add_eight, List.getElem?_append_left hk]
  · rintro rfl
    exact ⟨ending 0, ending 1⟩
  · rintro rfl
    exact ⟨ending 0, ending 1⟩
  · cases o <;> exact ending 2

/-! ## The reader (30_encoding.md R42) -/

/-- A reader finds the length of the payload in the LENGTH field. -/
theorem bigEndian16_payloadLength {p : List Byte} (short : p.length ≤ 65535) :
    bigEndian16 (hi8 (payloadLength p)) (lo8 (payloadLength p)) = p.length := by
  rw [bigEndian16_halves, payloadLength_toNat short]

theorem bigEndian16_le (hi lo : Byte) : bigEndian16 hi lo ≤ 65535 := by
  have := hi.isLt
  have := lo.isLt
  rw [bigEndian16]
  omega

/-- The LENGTH field of a payload of the length that two bytes give is these two bytes. -/
theorem payloadLength_eq_append {p : List Byte} {hi lo : Byte} (h : p.length = bigEndian16 hi lo) :
    payloadLength p = hi ++ lo := by
  have short := bigEndian16_le hi lo
  apply BitVec.eq_of_toNat_eq
  rw [payloadLength_toNat (h ▸ short), append_toNat, h, bigEndian16]
  omega

theorem wellFormedFrame_frameBytes (o : CrcOrder) (seq addr cmd : Byte) {p : List Byte} (short : p.length ≤ 65535) :
    wellFormedFrame o (frameBytes o seq addr cmd p) = true := by
  rw [frameBytes_eq, wellFormedFrame, bigEndian16_payloadLength short, List.drop_left, List.take_left, ← body_eq]
  simp [Config.terminator]

theorem readFrame_frameBytes_append (o : CrcOrder) (seq addr cmd : Byte) {p : List Byte} (rest : List Byte)
    (short : p.length ≤ 65535) :
    readFrame (frameBytes o seq addr cmd p ++ rest) = some (frameBytes o seq addr cmd p, rest) := by
  have width : (frameBytes o seq addr cmd p).length = p.length + 11 := by
    rw [frameBytes_length, Nat.add_comm]
  have cut : ((frameBytes o seq addr cmd p ++ rest).take (p.length + 11),
      (frameBytes o seq addr cmd p ++ rest).drop (p.length + 11)) = (frameBytes o seq addr cmd p, rest) := by
    rw [List.take_left' width, List.drop_left' width]
  rw [← cut, frameBytes_eq]
  simp only [List.cons_append, readFrame, bigEndian16_payloadLength short]
  refine if_pos ⟨trivial, trivial, trivial, ?_⟩
  simp only [List.length_append, crcBytes_length, List.length_singleton]
  omega

/-- A well-formed byte sequence is the frame of its fields. -/
theorem eq_frameBytes_of_wellFormedFrame {o : CrcOrder} {f : List Byte} (h : wellFormedFrame o f = true) :
    ∃ (seq addr cmd : Byte) (p : List Byte), p.length ≤ 65535 ∧ f = frameBytes o seq addr cmd p := by
  unfold wellFormedFrame at h
  split at h
  case h_2 => cases h
  case h_1 h0 h1 seq addr res cmd lh ll rest =>
    simp only [Bool.and_eq_true, beq_iff_eq] at h
    obtain ⟨⟨⟨⟨rfl, rfl⟩, rfl⟩, total⟩, ending⟩ := h
    obtain ⟨p, tail, rfl, counted⟩ : ∃ p tail, rest = p ++ tail ∧ p.length = bigEndian16 lh ll :=
      ⟨_, _, (List.take_append_drop (bigEndian16 lh ll) rest).symm, List.length_take_of_le (by omega)⟩
    rw [← counted, List.drop_left, List.take_left] at ending
    subst ending
    refine ⟨seq, addr, cmd, p, counted ▸ bigEndian16_le lh ll, ?_⟩
    rw [frameBytes_eq, body_eq, payloadLength_eq_append counted, hi8_append, lo8_append]
    rfl

/-- Settles O51: the LENGTH field is what tells a reader where the payload ends, in both directions. -/
theorem readerRecoversFrames : Obligations.ReaderRecoversFrames := by
  refine ⟨fun o seq addr cmd p rest short => ⟨?_, ?_⟩, fun o f h => eq_frameBytes_of_wellFormedFrame h⟩
  · exact wellFormedFrame_frameBytes o seq addr cmd short
  · exact readFrame_frameBytes_append o seq addr cmd rest short

end Sys2Proof.Machine

/-!
PROOFS. The checksum and its operations, 40_crc.md. First the layer that the proofs share: one iteration is linear over
exclusive-or and injective, so any number of iterations is. The table form follows from the first, and the half-register
form and the residue from it; the bijection follows from the second. Then the three operations, and a run of them.
-/
namespace Sys2Proof.Machine

/-! ## The iterations (40_crc.md R61) -/

/-- An iteration shifts, and adds the polynomial for a low bit of 1. -/
theorem crcShift_eq (c : Word16) : crcShift c = (c >>> 1) ^^^ (if c.getLsbD 0 then Config.crcPoly else 0) := by
  unfold crcShift
  split <;> simp

theorem crcShift_xor (c d : Word16) : crcShift (c ^^^ d) = crcShift c ^^^ crcShift d := by
  have polys : ∀ p q : Bool, (if p ^^ q then Config.crcPoly else 0) =
      (if p then Config.crcPoly else 0) ^^^ (if q then Config.crcPoly else 0) := by decide
  rw [crcShift_eq, crcShift_eq, crcShift_eq, BitVec.ushiftRight_xor_distrib, BitVec.getLsbD_xor, polys]
  ac_rfl

/-- Iterations are linear over exclusive-or (40_crc.md R62). -/
theorem crcShifts_xor (n : Nat) (c d : Word16) : crcShifts n (c ^^^ d) = crcShifts n c ^^^ crcShifts n d := by
  induction n generalizing c d with
  | zero => rfl
  | succ n ih => rw [crcShifts, crcShift_xor, ih, crcShifts, crcShifts]

/-- While the low bits are 0, the iterations only shift. -/
theorem crcShifts_of_low_zero {n : Nat} {c : Word16} (low : ∀ i < n, c.getLsbD i = false) :
    crcShifts n c = c >>> n := by
  induction n generalizing c with
  | zero => rw [crcShifts, BitVec.ushiftRight_zero]
  | succ n ih =>
    have first : crcShift c = c >>> 1 := if_neg (by rw [low 0 n.succ_pos]; decide)
    have rest : ∀ i < n, (c >>> 1).getLsbD i = false := fun i hi => by
      rw [BitVec.getLsbD_ushiftRight]
      exact low (1 + i) (by omega)
    rw [crcShifts, first, ih rest, ← BitVec.shiftRight_add, Nat.add_comm]

/-- The top bit of the polynomial is 1, so the bit shifted out stands there. -/
theorem crcShift_top (c : Word16) : (crcShift c).getLsbD 15 = c.getLsbD 0 := by
  rw [crcShift_eq, BitVec.getLsbD_xor, BitVec.getLsbD_ushiftRight, BitVec.getLsbD_of_ge c _ (by decide)]
  cases c.getLsbD 0 <;> decide

theorem crcShift_injective : Function.Injective crcShift := by
  intro c d h
  have low : c.getLsbD 0 = d.getLsbD 0 := by rw [← crcShift_top, h, crcShift_top]
  rw [crcShift_eq, crcShift_eq, low] at h
  have high : c >>> 1 = d >>> 1 := (BitVec.xor_left_inj _).mp h
  apply BitVec.eq_of_getLsbD_eq
  rintro (_ | i) -
  · exact low
  · simpa [Nat.add_comm] using congrArg (·.getLsbD i) high

theorem crcShifts_injective (n : Nat) : Function.Injective (crcShifts n) := by
  induction n with
  | zero => exact Function.injective_id
  | succ n ih => exact ih.comp crcShift_injective

/-! ## The table (40_crc.md R62) -/

theorem hi8_xor_zeroExtend (c : Word16) (b : Byte) : hi8 (c ^^^ b.zeroExtend 16) = hi8 c := by
  rw [hi8_xor, hi8_zeroExtend]
  exact BitVec.xor_zero

theorem lo8_xor_zeroExtend (c : Word16) (b : Byte) : lo8 (c ^^^ b.zeroExtend 16) = lo8 c ^^^ b := by
  rw [lo8_xor, lo8_zeroExtend]

/-- A value is its high half over a low half of 0, with its low half added. -/
theorem high_xor_low (c : Word16) : (hi8 c ++ (0 : Byte)) ^^^ (lo8 c).zeroExtend 16 = c := by
  apply eq_of_halves
  · rw [hi8_xor_zeroExtend, hi8_append]
  · rw [lo8_xor_zeroExtend, lo8_append]
    exact BitVec.zero_xor

theorem ushiftRight_eight (c : Word16) : c >>> 8 = (hi8 c).zeroExtend 16 := by
  apply BitVec.eq_of_toNat_eq
  simp [hi8_toNat, Nat.shiftRight_eq_div_pow]
  omega

/-- With a low half of 0, eight iterations are eight shifts. -/
theorem crcShifts_eight_of_lo8 {c : Word16} (low : lo8 c = 0) : crcShifts 8 c = (hi8 c).zeroExtend 16 := by
  rw [← ushiftRight_eight]
  refine crcShifts_of_low_zero fun i hi => ?_
  simpa [lo8, hi] using congrArg (·.getLsbD i) low

theorem crcStep_zero (b : Byte) : crcStep 0 b = crcShifts 8 (b.zeroExtend 16) := by
  simp [crcStep]

/-- Eight iterations shift the high half down and look up the low half. -/
theorem crcShifts_eight (c : Word16) : crcShifts 8 c = (hi8 c).zeroExtend 16 ^^^ crcStep 0 (lo8 c) := by
  conv_lhs => rw [← high_xor_low c, crcShifts_xor, crcShifts_eight_of_lo8 (lo8_append _ _), hi8_append]
  rw [crcStep_zero]

/-- The printed table, entry by entry. -/
theorem tableEntry_eq_crcStep : ∀ i : Byte, tableEntry i = crcStep 0 i := by
  decide

theorem crcStep_eq_table (c : Word16) (b : Byte) :
    crcStep c b = (hi8 c).zeroExtend 16 ^^^ tableEntry (lo8 c ^^^ b) := by
  rw [crcStep, crcShifts_eight, hi8_xor_zeroExtend, lo8_xor_zeroExtend, tableEntry_eq_crcStep]

/-- Settles O1: by linearity a step is that of the high half, which only shifts, and that of the low half, an entry of
the table. -/
theorem crcStepIsItsTableForm : Obligations.CrcStepIsItsTableForm := by
  refine ⟨by decide +kernel, tableEntry_eq_crcStep, fun c b => ?_⟩
  have index : (c ^^^ b.zeroExtend 16).extractLsb' 0 8 = lo8 c ^^^ b := lo8_xor_zeroExtend c b
  rw [crcStep_eq_table, ushiftRight_eight, index]

/-! ## The two halves (40_crc.md R63) -/

theorem hi8_crcStep (c : Word16) (b : Byte) : hi8 (crcStep c b) = hi8 (tableEntry (lo8 c ^^^ b)) := by
  rw [crcStep_eq_table, hi8_xor, hi8_zeroExtend]
  exact BitVec.zero_xor

theorem lo8_crcStep (c : Word16) (b : Byte) : lo8 (crcStep c b) = lo8 (tableEntry (lo8 c ^^^ b)) ^^^ hi8 c := by
  rw [crcStep_eq_table, lo8_xor, lo8_zeroExtend, BitVec.xor_comm]

theorem crcStepHalves_eq (c : Word16) (b : Byte) :
    crcStepHalves (hi8 c) (lo8 c) b = (hi8 (crcStep c b), lo8 (crcStep c b)) := by
  rw [hi8_crcStep, lo8_crcStep, crcStepHalves]

/-- The halves, stepped over a sequence, stay the halves of the accumulator. -/
theorem foldl_crcStepHalves (c : Word16) (s : List Byte) :
    s.foldl (fun q b => crcStepHalves q.1 q.2 b) (hi8 c, lo8 c) = (hi8 (crcFrom c s), lo8 (crcFrom c s)) := by
  induction s generalizing c with
  | nil => rfl
  | cons b s ih => rw [List.foldl_cons, crcStepHalves_eq, ih, crcFrom_cons]

/-- Settles O2: by the table form, then by induction on the sequence. -/
theorem crcHalfRegisterFormAgrees : Obligations.CrcHalfRegisterFormAgrees := by
  refine ⟨fun c b => ⟨lo8_crcStep c b, hi8_crcStep c b⟩, fun s => ?_⟩
  intro halves
  rw [show halves = _ from foldl_crcStepHalves Config.crcInit s]
  exact (hi8_append_lo8 _).symm

/-! ## Properties of the checksum (40_crc.md R64) -/

/-- A step of the low half has index 0 in the table, whose entry is 0. -/
theorem crcStep_lo8 (c : Word16) : crcStep c (lo8 c) = (hi8 c).zeroExtend 16 := by
  rw [crcStep_eq_table, BitVec.xor_self, show tableEntry 0#8 = 0#16 by decide, BitVec.xor_zero]

/-- The checksum's own two bytes, the low one first, take it to 0. -/
theorem crcFrom_halves (c : Word16) : crcFrom c [lo8 c, hi8 c] = 0 := by
  have again := crcStep_lo8 ((hi8 c).zeroExtend 16)
  rw [lo8_zeroExtend, hi8_zeroExtend] at again
  rw [crcFrom_cons, crcFrom_cons, crcFrom_nil, crcStep_lo8, again]
  rfl

theorem crcStep_injective_crc (b : Byte) : Function.Injective fun c : Word16 => crcStep c b :=
  fun _ _ h => (BitVec.xor_left_inj _).mp (crcShifts_injective 8 h)

theorem crcStep_injective_byte (c : Word16) : Function.Injective fun b : Byte => crcStep c b := by
  intro b d h
  have extended : b.zeroExtend 16 = d.zeroExtend 16 := (BitVec.xor_right_inj _).mp (crcShifts_injective 8 h)
  simpa using congrArg lo8 extended

/-- Settles O3: an injection of the 16-bit values into themselves is a bijection. -/
theorem checksumProperties : Obligations.ChecksumProperties := by
  refine ⟨rfl, crc16_concat, fun s => ?_, by decide +kernel, fun b => ?_, crcStep_injective_byte⟩
  · rw [← crcFrom_crc16, crcFrom_halves]
  · exact Finite.injective_iff_bijective.mp (crcStep_injective_crc b)

/-! ## The operations (40_crc.md R65 to R67) -/

theorem exec_crcUpd_idle (b : Byte) {s : State} (idle : s.phase = .idle) :
    exec (.crcUpd b) s = .next ((s.setCrc (crcStep s.crc b)).respond .ok) := by
  simp [exec, execCrcUpd, idle]

theorem exec_crcUpd_payload (b : Byte) {s : State} (busy : s.phase = .payload) :
    exec (.crcUpd b) s = .next (s.raise .busy) := by
  simp [exec, execCrcUpd, busy]

theorem exec_crcRd (s : State) :
    exec .crcRd s = .next { s with responses := s.responses ++ [.okValue ((0 : Word16) ++ s.crc)] } := by
  have value : s.crc.zeroExtend 32 = (0 : Word16) ++ s.crc := BitVec.setWidth_eq_append (by decide)
  rw [← value]
  rfl

/-- Settles O4: its word is the encoding of CRC.INIT. -/
theorem crcInitResult : Obligations.CrcInitResult :=
  ⟨decodeOp_of_encode rfl, fun _ => ⟨exec_crcInit_idle, exec_crcInit_payload⟩⟩

/-- Settles O5: its word is the encoding of CRC.UPD with that data byte. -/
theorem crcUpdResult : Obligations.CrcUpdResult := by
  refine ⟨fun b w hw => ?_, fun b _ => ⟨exec_crcUpd_idle b, exec_crcUpd_payload b⟩⟩
  have word : opWord opCrcUpd 0 0 (dataC b) = w := by
    rw [← BitVec.toNat_inj, opWord_toNat, dataC_toNat, hw]
    rfl
  exact decodeOp_of_encode (congrArg Encoded.op word)

/-- Settles O6: its word is the encoding of CRC.RD, whose 16 bits are extended with 16 zero bits. -/
theorem crcRdResult : Obligations.CrcRdResult :=
  ⟨decodeOp_of_encode rfl, exec_crcRd⟩

/-! ## The pseudo-operation CRC16 (40_crc.md R68) -/

theorem runInstrs_append {is : List Instr} {s t : State} (h : runInstrs is s = .next t) (js : List Instr) :
    runInstrs (is ++ js) s = runInstrs js t := by
  induction is generalizing s with
  | nil =>
    cases h
    rfl
  | cons i is ih =>
    obtain ⟨u, -, hu, -⟩ := exec_answers i s
    rw [runInstrs_cons hu] at h
    rw [List.cons_append, runInstrs_cons hu, ih h]

/-- In IDLE each CRC.UPD is accepted and `CRC` takes the bytes in order. -/
theorem runInstrs_crcUpd_idle (bytes : List Byte) {s : State} (idle : s.phase = .idle) :
    runInstrs (bytes.map .crcUpd) s = .next { s with
      crc := crcFrom s.crc bytes
      responses := s.responses ++ List.replicate bytes.length .ok } := by
  induction bytes generalizing s with
  | nil => simp [runInstrs]
  | cons b bytes ih =>
    refine Eq.trans (runInstrs_cons (exec_crcUpd_idle b idle) _) (Eq.trans (ih idle) ?_)
    simp [State.setCrc, State.respond, List.replicate_succ]

/-- In PAYLOAD each CRC.UPD is refused. -/
theorem runInstrs_crcUpd_payload (bytes : List Byte) {s : State} (busy : s.phase = .payload) :
    runInstrs (bytes.map .crcUpd) s = .next { s with
      responses := s.responses ++ List.replicate bytes.length (.err .busy) } := by
  induction bytes generalizing s with
  | nil => simp [runInstrs]
  | cons b bytes ih =>
    refine Eq.trans (runInstrs_cons (exec_crcUpd_payload b busy) _) (Eq.trans (ih busy) ?_)
    simp [State.raise, State.respond, List.replicate_succ]

/-- A CRC16 whose CRC.INIT and run of CRC.UPD end in `u` answers the `CRC` of `u`. -/
theorem runInstrs_crc16Instrs {bytes : List Byte} {s t u : State} (init : exec .crcInit s = .next t)
    (updates : runInstrs (bytes.map .crcUpd) t = .next u) :
    runInstrs (crc16Instrs bytes) s =
      .next { u with responses := u.responses ++ [.okValue ((0 : Word16) ++ u.crc)] } := by
  rw [crc16Instrs, runInstrs_cons init, runInstrs_append updates, runInstrs_single (exec_crcRd u)]

/-- Settles O7: the CRC.INIT, the run of CRC.UPD by induction on the bytes, and the CRC.RD. -/
theorem crc16NetEffect : Obligations.Crc16NetEffect := by
  refine fun bytes s => ⟨fun idle => ?_, fun busy => ?_⟩
  · refine Eq.trans (runInstrs_crc16Instrs (exec_crcInit_idle idle) (runInstrs_crcUpd_idle bytes idle)) ?_
    simp [State.setCrc, State.respond, List.replicate_succ, crc16]
  · refine Eq.trans (runInstrs_crc16Instrs (exec_crcInit_payload busy) (runInstrs_crcUpd_payload bytes busy)) ?_
    simp [State.raise, State.respond, List.replicate_succ]

end Sys2Proof.Machine

/-!
PROOFS. The frame assembler, 41_frame.md. First the layer that the proofs share: an equation per outcome of FRM.START and
of FRM.DATA. A run of FRM.DATA and then BUILD follow from them by induction on the payload; the port runs the same
operations, word by word.
-/
namespace Sys2Proof.Machine

/-! ## The operations, outcome by outcome (41_frame.md R75 to R78) -/

theorem startFrame_payload (addr cmd : Byte) (len : Word16) {s : State} (busy : s.phase = .payload) :
    startFrame addr cmd len s = s.raise .busy :=
  if_pos busy

theorem startFrame_tooLarge (addr cmd : Byte) {len : Word16} {s : State} (idle : s.phase = .idle)
    (large : s.params.maxPayload.toNat < len.toNat) : startFrame addr cmd len s = s.raise .payloadTooLarge := by
  have large' : s.params.maxPayload < len := BitVec.lt_def.mpr large
  simp [startFrame, idle, large']

theorem startFrame_accepted (addr cmd : Byte) {len : Word16} {s : State} (idle : s.phase = .idle)
    (fits : len.toNat ≤ s.params.maxPayload.toNat) : startFrame addr cmd len s = frameAccepted addr cmd len s := by
  rcases startFrame_cases addr cmd len s with ⟨busy, -⟩ | ⟨-, large, -⟩ | ⟨-, -, rfl, e⟩ | ⟨-, -, nonzero, e⟩
  · exact absurd (idle.symm.trans busy) (by decide)
  · exact absurd large (BitVec.not_lt.mpr (BitVec.le_def.mpr fits))
  · rw [e, openFrame_eq, completeFrame_eq, frameAccepted, if_pos rfl]
    simp [State.respond, frameBytes, body, payloadLength]
  · rw [e, openFrame_eq, frameAccepted, if_neg nonzero]
    rfl

theorem exec_frmStart (addr cmd : Byte) (len : Word16) (s : State) :
    exec (.frmStart addr cmd len) s = .next (startFrame addr cmd len s) := rfl

theorem supplyByte_idle (b : Byte) {s : State} (idle : s.phase = .idle) : supplyByte b s = s.raise .notInFrame :=
  if_pos idle

theorem supplyByte_notLast (b : Byte) {s : State} (busy : s.phase = .payload) (notLast : s.rem ≠ 1) :
    supplyByte b s = (takeByte b s).respond .ok := by
  rcases supplyByte_cases b s with ⟨idle, -⟩ | ⟨-, last, -⟩ | ⟨-, -, e⟩
  · exact absurd (idle.symm.trans busy) (by decide)
  · exact absurd last notLast
  · exact e

theorem supplyByte_last (b : Byte) {s : State} (busy : s.phase = .payload) (last : s.rem = 1) :
    supplyByte b s = (completeFrame (takeByte b s)).respond .ok := by
  rcases supplyByte_cases b s with ⟨idle, -⟩ | ⟨-, -, e⟩ | ⟨-, notLast, -⟩
  · exact absurd (idle.symm.trans busy) (by decide)
  · exact e
  · exact absurd last notLast

theorem exec_frmData (b : Byte) (s : State) : exec (.frmData b) s = .next (supplyByte b s) := rfl

theorem exec_statRd (s : State) : exec .statRd s = .next (s.respond (.okValue s.statusWord)) := rfl

/-- Settles O9: its word is the encoding of FRM.START, and its outcomes are those of the equations. -/
theorem frmStartResult : Obligations.FrmStartResult := by
  refine ⟨fun addr cmd len w hw => ?_, fun addr cmd len s => ⟨fun idle fits nonzero => ?_, ?_, fun busy => ?_,
    fun idle large => ?_⟩⟩
  · have word : opWord opFrmStart addr cmd len = w := by
      rw [← BitVec.toNat_inj, opWord_toNat, hw]
      rfl
    exact decodeOp_of_encode (congrArg Encoded.op word)
  · rw [exec_frmStart, startFrame_accepted addr cmd idle fits, frameAccepted, if_neg nonzero, List.append_assoc]
    rfl
  · rintro idle rfl
    rw [exec_frmStart, startFrame_accepted addr cmd idle (Nat.zero_le _), frameAccepted, if_pos rfl, frameBytes, body_eq]
    simp [Config.header, Config.terminator, payloadLength]
  · rw [exec_frmStart, startFrame_payload addr cmd len busy]
    rfl
  · rw [exec_frmStart, startFrame_tooLarge addr cmd idle large]
    rfl

/-- Settles O10: the equation of the completion step, with the CRC field of each order. -/
theorem completeFrameStep : Obligations.CompleteFrameStep := by
  intro s
  rw [completeFrame_eq]
  refine ⟨fun order => ?_, fun order => ?_, BitVec.toNat_add s.seq 1⟩ <;>
    rw [order]
  · rfl
  · rfl

/-- Settles O11: its word is the encoding of FRM.DATA, and its outcomes are those of the equations. -/
theorem frmDataResult : Obligations.FrmDataResult := by
  refine ⟨fun b w hw => ?_, fun b s => ⟨fun idle => ?_, fun busy more => ?_, fun busy last => ?_⟩⟩
  · have word : opWord opFrmData 0 0 (dataC b) = w := by
      rw [← BitVec.toNat_inj, opWord_toNat, dataC_toNat, hw]
      rfl
    exact decodeOp_of_encode (congrArg Encoded.op word)
  · rw [exec_frmData, supplyByte_idle b idle]
    rfl
  · have less : BitVec.ofNat 16 (s.rem.toNat - 1) = s.rem - 1 := by bv_omega
    rw [exec_frmData, supplyByte_notLast b busy (by bv_omega), takeByte_eq, less]
    rfl
  · rw [exec_frmData, supplyByte_last b busy (by bv_omega), takeByte_eq, completeFrame_eq, ← List.append_assoc]
    rfl

/-! ## The status word (41_frame.md R78) -/

theorem statusWord_toNat (s : State) :
    s.statusWord.toNat = s.busy.toNat * 2 ^ 24 + s.seq.toNat * 2 ^ 16 + s.rem.toNat := by
  rw [State.statusWord, append_toNat, append_toNat, append_toNat, show (0 : BitVec 7).toNat = 0 from rfl]
  omega

theorem busy_getLsbD_zero (s : State) : s.busy.getLsbD 0 = true ↔ s.phase = .payload := by
  rw [State.busy]
  cases s.phase <;> decide

theorem statusWord_bit24 (s : State) : s.statusWord.getLsbD 24 = true ↔ s.phase = .payload := by
  have bit : s.statusWord.getLsbD 24 = s.busy.getLsbD 0 := by
    rw [State.statusWord, BitVec.getLsbD_append, BitVec.getLsbD_append, BitVec.getLsbD_append]
    rfl
  rw [bit, busy_getLsbD_zero]

/-- Settles O12: its word is the encoding of STAT.RD, and its value is the status word, field by field. -/
theorem statRdResult : Obligations.StatRdResult := by
  refine ⟨decodeOp_of_encode rfl, fun s => ⟨s.statusWord, exec_statRd s, ?_, statusWord_bit24 s, ?_, ?_⟩⟩ <;>
    rw [← BitVec.toNat_inj, extract_toNat, statusWord_toNat]
  · rw [show (0 : BitVec 7).toNat = 0 from rfl]
    omega
  · omega
  · omega

/-! ## The phase transition table (41_frame.md R83) -/

/-- CRC.INIT and CRC.UPD keep `PHASE` and `REM`, and in PAYLOAD are refused. -/
theorem exec_crcWriter {i : Instr} (s : State) (writer : i = .crcInit ∨ ∃ b, i = .crcUpd b) :
    ∃ t, exec i s = .next t ∧ t.phase = s.phase ∧ t.rem = s.rem ∧ (s.phase = .payload → t = s.raise .busy) := by
  cases hp : s.phase with
  | idle =>
    rcases writer with rfl | ⟨b, rfl⟩
    · exact ⟨_, exec_crcInit_idle hp, hp, rfl, nofun⟩
    · exact ⟨_, exec_crcUpd_idle b hp, hp, rfl, nofun⟩
  | payload =>
    rcases writer with rfl | ⟨b, rfl⟩
    · exact ⟨_, exec_crcInit_payload hp, hp, rfl, fun _ => rfl⟩
    · exact ⟨_, exec_crcUpd_payload b hp, hp, rfl, fun _ => rfl⟩

/-- Settles O13: in IDLE the table's `REM` = 0 is the premise's, and the outcomes are those of the equations. -/
theorem phaseTransitionTable : Obligations.PhaseTransitionTable := by
  intro s hs
  have rem_of_idle : s.phase = .idle → s.rem = 0 := hs.1.mp
  refine ⟨fun addr cmd len => ⟨_, exec_frmStart addr cmd len s, fun idle large => ?_, ?_, fun idle nonzero fits => ?_,
    startFrame_payload addr cmd len⟩, fun b => ⟨_, exec_frmData b s, fun idle => ?_, fun busy more => ?_,
    fun busy last => ?_⟩, fun i writer => exec_crcWriter s writer, ?_, rfl, rfl⟩
  · rw [startFrame_tooLarge addr cmd idle large]
    exact ⟨rfl, idle, rem_of_idle idle⟩
  · rintro idle rfl
    rw [startFrame_accepted addr cmd idle (Nat.zero_le _), frameAccepted, if_pos rfl]
    exact ⟨rfl, rfl⟩
  · rw [startFrame_accepted addr cmd idle fits, frameAccepted, if_neg (by bv_omega)]
    exact ⟨rfl, rfl⟩
  · rw [supplyByte_idle b idle]
    exact ⟨rfl, idle, rem_of_idle idle⟩
  · rw [supplyByte_notLast b busy (by bv_omega), takeByte_eq]
    exact ⟨busy, toNat_rem_sub_one (by omega)⟩
  · rw [supplyByte_last b busy last]
    exact ⟨rfl, rfl⟩
  · rintro i (rfl | rfl)
    · exact ⟨_, exec_crcRd s, rfl, rfl⟩
    · exact ⟨_, exec_statRd s, rfl, rfl⟩

/-! ## The payload bytes of a frame (41_frame.md R77) -/

/-- `s` after the payload bytes `p`, the last of which completes the frame. -/
def payloadSupplied (p : List Byte) (s : State) : State :=
  { s with
    crc := crcFrom s.crc p
    seq := s.seq + 1
    phase := .idle
    rem := 0
    tx := s.tx ++ (p ++ (crcBytes s.params.crcOrder (crcFrom s.crc p) ++ [Config.terminator]))
    responses := s.responses ++ List.replicate p.length .ok }

/-- As many FRM.DATA as bytes are missing are all accepted, and complete the frame. -/
theorem runInstrs_frmData {p : List Byte} {s : State} (busy : s.phase = .payload) (nonempty : p ≠ [])
    (missing : s.rem.toNat = p.length) :
    runInstrs (p.map .frmData) s = .next (payloadSupplied p s) := by
  induction p generalizing s with
  | nil => exact absurd rfl nonempty
  | cons b p ih =>
    rw [List.map_cons, runInstrs_cons (exec_frmData b s)]
    rw [List.length_cons] at missing
    cases p with
    | nil =>
      have last : s.rem = 1 := BitVec.eq_of_toNat_eq missing
      rw [supplyByte_last b busy last, takeByte_eq, completeFrame_eq]
      simp [runInstrs, payloadSupplied, State.respond]
    | cons c p =>
      rw [List.length_cons] at missing
      have notLast : s.rem ≠ 1 := by bv_omega
      have less := toNat_rem_sub_one (r := s.rem) (by omega)
      have missing' : (s.rem - 1).toNat = (c :: p).length := by
        rw [less, missing]
        rfl
      rw [supplyByte_notLast b busy notLast, takeByte_eq]
      refine Eq.trans (ih busy (List.cons_ne_nil c p) missing') ?_
      simp [payloadSupplied, State.respond, List.replicate_succ]

/-! ## BUILD (41_frame.md R79) -/

/-- `s` after an accepted BUILD (41_frame.md R79). -/
def buildAccepted (addr cmd : Byte) (p : List Byte) (s : State) : State :=
  { s with
    crc := crc16 (body s.seq addr cmd p)
    seq := s.seq + 1
    phase := .idle
    rem := 0
    tx := s.tx ++ frameBytes s.params.crcOrder s.seq addr cmd p
    responses := s.responses ++ List.replicate (p.length + 1) .ok }

/-- A payload within `MAX_PAYLOAD` has a LENGTH field. -/
theorem toNat_payloadLength_of_fits {p : List Byte} {m : Word16} (fits : p.length ≤ m.toNat) :
    (payloadLength p).toNat = p.length :=
  payloadLength_toNat (by omega)

/-- After the FRM.START of a BUILD its FRM.DATA are all accepted. -/
theorem runInstrs_frmData_frameAccepted (addr cmd : Byte) {p : List Byte} (s : State) (short : p.length ≤ 65535) :
    runInstrs (p.map .frmData) (frameAccepted addr cmd (payloadLength p) s) =
      .next (buildAccepted addr cmd p s) := by
  cases p with
  | nil => rfl
  | cons b p =>
    have width := payloadLength_toNat short
    rw [List.length_cons] at width
    rw [frameAccepted, if_neg (by bv_omega), runInstrs_frmData rfl (List.cons_ne_nil b p) (payloadLength_toNat short)]
    have span : crcFrom (crc16 (countedBytes s.seq addr cmd (payloadLength (b :: p)))) (b :: p) =
        crc16 (body s.seq addr cmd (b :: p)) := crcFrom_crc16 _ _
    simp only [payloadSupplied, buildAccepted, frameBytes, span]
    simp [body, List.replicate_succ]

theorem exec_frmStart_of_fits (addr cmd : Byte) {p : List Byte} {s : State} (idle : s.phase = .idle)
    (fits : p.length ≤ s.params.maxPayload.toNat) :
    exec (.frmStart addr cmd (payloadLength p)) s = .next (frameAccepted addr cmd (payloadLength p) s) := by
  rw [exec_frmStart, startFrame_accepted addr cmd idle (by rwa [toNat_payloadLength_of_fits fits])]

/-- The operations of an accepted BUILD. -/
theorem runInstrs_buildInstrs (addr cmd : Byte) {p : List Byte} {s : State} (idle : s.phase = .idle)
    (fits : p.length ≤ s.params.maxPayload.toNat) :
    runInstrs (buildInstrs addr cmd p) s = .next (buildAccepted addr cmd p s) := by
  rw [buildInstrs, runInstrs_cons (exec_frmStart_of_fits addr cmd idle fits),
    runInstrs_frmData_frameAccepted addr cmd s (by omega)]

theorem frameAccepted_lastResponse (addr cmd : Byte) (len : Word16) (s : State) :
    (frameAccepted addr cmd len s).lastResponse = some .ok := by
  rw [frameAccepted]
  split <;> simp [State.lastResponse]

theorem build_accepted (addr cmd : Byte) {p : List Byte} {s : State} (idle : s.phase = .idle)
    (fits : p.length ≤ s.params.maxPayload.toNat) :
    build addr cmd p s = .next (.ok, buildAccepted addr cmd p s) := by
  have short : p.length ≤ 65535 := by omega
  simp only [build, Nat.not_lt.mpr short, if_false, exec_frmStart_of_fits addr cmd idle fits,
    frameAccepted_lastResponse, runInstrs_frmData_frameAccepted addr cmd s short]

/-- A refused BUILD issues no FRM.DATA: the block is as before, or has refused one FRM.START. -/
theorem build_of_startFrame_refused {addr cmd : Byte} {p : List Byte} {s : State} {e : ErrorCode}
    (code : e = if s.phase = .payload then .busy else .payloadTooLarge)
    (refused : p.length ≤ 65535 → startFrame addr cmd (payloadLength p) s = s.raise e) :
    ∃ t, build addr cmd p s = .next (.err e, t) ∧ (t = s ∨ t = s.raise e) := by
  by_cases short : p.length ≤ 65535
  · refine ⟨s.raise e, ?_, .inr rfl⟩
    have last : (s.raise e).lastResponse = some (.err e) := by simp [State.lastResponse]
    simp only [build, Nat.not_lt.mpr short, if_false, exec_frmStart, refused short, last]
  · refine ⟨s, ?_, .inl rfl⟩
    rw [build, if_pos (Nat.not_le.mp short), ← code]

theorem build_payload (addr cmd : Byte) (p : List Byte) {s : State} (busy : s.phase = .payload) :
    ∃ t, build addr cmd p s = .next (.err .busy, t) ∧ (t = s ∨ t = s.raise .busy) :=
  build_of_startFrame_refused (by rw [if_pos busy]) fun _ => startFrame_payload addr cmd _ busy

theorem build_tooLarge (addr cmd : Byte) {p : List Byte} {s : State} (idle : s.phase = .idle)
    (large : s.params.maxPayload.toNat < p.length) :
    ∃ t, build addr cmd p s = .next (.err .payloadTooLarge, t) ∧ (t = s ∨ t = s.raise .payloadTooLarge) :=
  build_of_startFrame_refused (by rw [idle]; rfl) fun short =>
    startFrame_tooLarge addr cmd idle (by rwa [payloadLength_toNat short])

/-- Settles O52: an accepted BUILD has the whole effect of its operations, and a refused one leaves at most one answer. -/
theorem buildNetEffect : Obligations.BuildNetEffect := by
  refine fun addr cmd p s => ⟨fun idle fits => ?_, fun idle large => ?_, fun busy => ?_⟩
  · exact ⟨_, build_accepted addr cmd idle fits, rfl, by rw [State.registers, buildAccepted], rfl, rfl⟩
  · obtain ⟨t, ht, rfl | rfl⟩ := build_tooLarge addr cmd idle large <;> exact ⟨_, ht, rfl, rfl, rfl, rfl⟩
  · obtain ⟨t, ht, rfl | rfl⟩ := build_payload addr cmd p busy <;> exact ⟨_, ht, rfl, rfl, rfl, rfl⟩

/-- Settles O55: what is appended is a frame built from these alone. -/
theorem buildIsDeterministicInSeq : Obligations.BuildIsDeterministicInSeq := by
  intro addr cmd p s s' idle idle' fits fits' sameSeq sameOrder
  refine ⟨_, _, frameBytes s.params.crcOrder s.seq addr cmd p, build_accepted addr cmd idle fits,
    build_accepted addr cmd idle' fits', rfl, ?_⟩
  rw [← sameSeq, ← sameOrder]
  rfl

/-! ## BUILD at the port (30_encoding.md R43, R49) -/

/-- The words of well-formed instructions, stepped one by one, do what the instructions do in order. -/
theorem run_portWords {is : List Instr} {s : State} {rest : List HostInput} (wf : ∀ i ∈ is, i.wf = true)
    (hp : s.pending = portWords is ++ rest) :
    Host.Core.run core is.length s = runInstrs is { s with pending := rest } := by
  induction is generalizing s with
  | nil =>
    rw [← show s.pending = rest from hp]
    rfl
  | cons i is ih =>
    have decoded : decode (encode i) = .instr i := decodeOfEncode i (wf i List.mem_cons_self)
    obtain ⟨t, _, ht, -, hpending, -⟩ := exec_answers i { s with pending := portWords is ++ rest }
    have stepped : step s = .next t := (step_word hp).trans ((runWord_instr decoded _).trans ht)
    rw [List.length_cons, run_succ stepped, ih (fun j hj => wf j (List.mem_cons_of_mem i hj)) hpending,
      runInstrs_cons (exec_withPending rest ht)]

theorem buildInstrs_wf (addr cmd : Byte) (p : List Byte) : ∀ i ∈ buildInstrs addr cmd p, i.wf = true := by
  simp [buildInstrs, Instr.wf]

/-- Settles O53: the port runs the operations of the BUILD. -/
theorem portWordsOfBuildAppendTheFrame : Obligations.PortWordsOfBuildAppendTheFrame := by
  intro addr cmd p s rest idle fits hp
  have ran := run_portWords (buildInstrs_wf addr cmd p) hp
  have width : (buildInstrs addr cmd p).length = p.length + 1 := by simp [buildInstrs]
  rw [width] at ran
  exact ran.trans (runInstrs_buildInstrs addr cmd (s := { s with pending := rest }) idle fits)

/-! ## Sequence numbers (41_frame.md R80, R81) -/

/-- The frames of the requests in order, their `SEQ` bytes counted from `v` (41_frame.md R81). -/
def numberedFrames (o : CrcOrder) (v : Byte) (qs : List BuildRequest) : List (List Byte) :=
  qs.mapIdx fun j q => frameBytes o (BitVec.ofNat 8 (v.toNat + j)) q.addr q.cmd q.payload

/-- Counting from the next number is counting one further. -/
theorem ofNat_succ_toNat_add (v : Byte) (j : Nat) :
    BitVec.ofNat 8 ((v + 1).toNat + j) = BitVec.ofNat 8 (v.toNat + (j + 1)) := by
  apply BitVec.eq_of_toNat_eq
  simp only [BitVec.toNat_ofNat, BitVec.toNat_add]
  rw [show (1 : Byte).toNat = 1 from rfl]
  omega

theorem numberedFrames_cons (o : CrcOrder) (v : Byte) (q : BuildRequest) (qs : List BuildRequest) :
    numberedFrames o v (q :: qs) = frameBytes o v q.addr q.cmd q.payload :: numberedFrames o (v + 1) qs := by
  simp only [numberedFrames, List.mapIdx_cons, ofNat_succ_toNat_add]
  simp

/-- The requests within `MAX_PAYLOAD`. -/
def withinMaxPayload (m : Word16) (qs : List BuildRequest) : List BuildRequest :=
  qs.filter fun q => q.payload.length ≤ m.toNat

theorem buildAll_cons {q : BuildRequest} {s t : State} {r : Response}
    (h : build q.addr q.cmd q.payload s = .next (r, t)) (qs : List BuildRequest) :
    buildAll (q :: qs) s = buildAll qs t := by
  simp only [buildAll, h]

/-- Consecutive BUILDs append the numbered frames of those within `MAX_PAYLOAD`, and `SEQ` counts them. -/
theorem buildAll_from_idle (qs : List BuildRequest) {s : State} (idle : s.phase = .idle) :
    ∃ t, buildAll qs s = .next t ∧ t.phase = .idle ∧
      t.tx = s.tx ++ (numberedFrames s.params.crcOrder s.seq (withinMaxPayload s.params.maxPayload qs)).flatten ∧
      t.seq = BitVec.ofNat 8 (s.seq.toNat + (withinMaxPayload s.params.maxPayload qs).length) := by
  induction qs generalizing s with
  | nil => exact ⟨s, rfl, idle, by simp [withinMaxPayload, numberedFrames], by simp [withinMaxPayload]⟩
  | cons q qs ih =>
    by_cases fits : q.payload.length ≤ s.params.maxPayload.toNat
    · obtain ⟨t, ht, idle', htx, hseq⟩ := ih (s := buildAccepted q.addr q.cmd q.payload s) rfl
      have kept : withinMaxPayload s.params.maxPayload (q :: qs) = q :: withinMaxPayload s.params.maxPayload qs :=
        List.filter_cons_of_pos (by simpa using fits)
      refine ⟨t, (buildAll_cons (build_accepted q.addr q.cmd idle fits) qs).trans ht, idle', ?_, ?_⟩
      · rw [htx, kept, numberedFrames_cons, List.flatten_cons, ← List.append_assoc]
        rfl
      · rw [hseq, kept, List.length_cons, ← ofNat_succ_toNat_add]
        rfl
    · have dropped : withinMaxPayload s.params.maxPayload (q :: qs) = withinMaxPayload s.params.maxPayload qs :=
        List.filter_cons_of_neg (by simpa using fits)
      rw [dropped]
      obtain ⟨t, ht, rfl | rfl⟩ := build_tooLarge q.addr q.cmd idle (Nat.not_le.mp fits) <;> rw [buildAll_cons ht]
      · exact ih idle
      · exact ih (s := s.raise .payloadTooLarge) idle

/-- Settles O56: by induction on the requests; 256 more is the same byte. -/
theorem sequenceNumbersCount : Obligations.SequenceNumbersCount := by
  intro qs s idle accepted
  obtain ⟨t, ht, idle', htx, hseq⟩ := buildAll_from_idle qs idle
  refine ⟨t, ht, idle', htx, hseq, fun wrapped => ?_⟩
  have count : (withinMaxPayload s.params.maxPayload qs).length = 256 := wrapped
  rw [hseq, count]
  bv_omega

end Sys2Proof.Machine

/-!
PROOFS. The frame rows, 42_command_ids.md. Every instruction that requests a frame has the outcomes of FRM.START; what
the COMMAND value of an accepted FRM.START reaches is its byte of the frame and the checksum over it.
-/
namespace Sys2Proof.Machine

/-! ## Requests for a frame (42_command_ids.md R95 to R108, log entry 5) -/

theorem exec_request_accepted {i : Instr} {addr cmd : Byte} {len : Word16} {s : State}
    (request : frameRequest i = some (addr, cmd, len)) (idle : s.phase = .idle)
    (fits : len.toNat ≤ s.params.maxPayload.toNat) : exec i s = .next (frameAccepted addr cmd len s) := by
  rw [exec_of_request s request, startFrame_accepted addr cmd idle fits]

/-- Settles O15: each of the rows is a request for the frame with its COMMAND value. -/
theorem frameRowsAreAccepted : Obligations.FrameRowsAreAccepted := by
  intro seq addr cmd len s idle fits
  have accepted {i : Instr} {c : Byte} (request : frameRequest i = some (addr, c, len)) :
      exec i s = .next (frameAccepted addr c len s) := exec_request_accepted request idle fits
  exact ⟨accepted rfl, accepted rfl, accepted rfl, accepted rfl, accepted rfl, accepted rfl, accepted rfl,
    accepted rfl, accepted rfl, accepted rfl, accepted rfl, accepted rfl, accepted rfl⟩

/-- Settles O16: the refusals are those of FRM.START. -/
theorem frameRowsAreRefusedAsFrmStart : Obligations.FrameRowsAreRefusedAsFrmStart := by
  intro i addr cmd len s request
  rw [exec_of_request s request]
  refine ⟨fun busy => ?_, fun idle large => ?_⟩
  · rw [startFrame_payload addr cmd len busy]
    rfl
  · rw [startFrame_tooLarge addr cmd idle large]
    rfl

/-! ## The COMMAND byte (42_command_ids.md R95) -/

/-- Of an accepted FRM.START only `CRC` and `TX` depend on the COMMAND value. -/
theorem frameAccepted_command (addr cmd cmd' : Byte) (len : Word16) (s : State) :
    frameAccepted addr cmd' len s = { frameAccepted addr cmd len s with
      crc := (frameAccepted addr cmd' len s).crc, tx := (frameAccepted addr cmd' len s).tx } := by
  unfold frameAccepted
  split
  · rfl
  · rfl

theorem frameAccepted_crc (addr cmd : Byte) (len : Word16) (s : State) :
    (frameAccepted addr cmd len s).crc = crc16 (countedBytes s.seq addr cmd len) := by
  unfold frameAccepted
  split
  case isTrue zero =>
    subst zero
    rfl
  case isFalse => rfl

/-- An accepted FRM.START emits the header, the counted bytes and, for a frame without payload, the three bytes that end
it (41_frame.md R75). -/
theorem frameAccepted_tx (addr cmd : Byte) (len : Word16) (s : State) :
    ∃ ending, (frameAccepted addr cmd len s).tx =
        s.tx ++ (Config.header ++ countedBytes s.seq addr cmd len ++ ending) ∧
      ending.length = if len = 0 then 3 else 0 := by
  unfold frameAccepted
  split
  case isTrue zero =>
    subst zero
    exact ⟨crcBytes s.params.crcOrder (crc16 (body s.seq addr cmd [])) ++ [Config.terminator],
      by simp [frameBytes, body, payloadLength], by simp⟩
  case isFalse => exact ⟨[], by simp, rfl⟩

/-- The COMMAND value is the byte at offset 5 of a frame's head and no other. -/
theorem head_command (seq addr cmd cmd' : Byte) (len : Word16) :
    Config.header ++ countedBytes seq addr cmd' len = (Config.header ++ countedBytes seq addr cmd len).set 5 cmd' :=
  rfl

theorem getElem?_head_of_ne_five (seq addr cmd cmd' : Byte) (len : Word16) (ending ending' : List Byte) {k : Nat}
    (inHead : k < 8) (other : k ≠ 5) :
    (Config.header ++ countedBytes seq addr cmd len ++ ending)[k]? =
      (Config.header ++ countedBytes seq addr cmd' len ++ ending')[k]? := by
  have ofHead (c : Byte) (e : List Byte) : (Config.header ++ countedBytes seq addr c len ++ e)[k]? =
      (Config.header ++ countedBytes seq addr c len)[k]? := List.getElem?_append_left inHead
  rw [ofHead, ofHead, head_command seq addr cmd cmd' len, List.getElem?_set_ne other.symm]

/-- In PAYLOAD, or with too large a length, FRM.START is refused without regard to its COMMAND value. -/
theorem startFrame_refused_command (addr cmd cmd' : Byte) {len : Word16} {s : State}
    (refused : s.phase = .payload ∨ s.params.maxPayload.toNat < len.toNat) :
    startFrame addr cmd len s = startFrame addr cmd' len s := by
  cases hp : s.phase with
  | payload => rw [startFrame_payload addr cmd len hp, startFrame_payload addr cmd' len hp]
  | idle =>
    have large : s.params.maxPayload.toNat < len.toNat := refused.resolve_left (by simp [hp])
    rw [startFrame_tooLarge addr cmd hp large, startFrame_tooLarge addr cmd' hp large]

/-- Settles O17: the two heads differ at offset 5 alone, what ends the two frames is equally long, and only `CRC` and
`TX` see the value; a refusal doesn't see it. -/
theorem commandByteIsOpaque : Obligations.CommandByteIsOpaque := by
  intro addr cmd cmd' len s
  refine ⟨fun idle fits => ?_, fun refused => ?_⟩
  · obtain ⟨ending, htx, width⟩ := frameAccepted_tx addr cmd len s
    obtain ⟨ending', htx', width'⟩ := frameAccepted_tx addr cmd' len s
    have same := frameAccepted_command addr cmd cmd' len s
    exact ⟨frameAccepted addr cmd len s, frameAccepted addr cmd' len s, _, _,
      exec_request_accepted rfl idle fits, exec_request_accepted rfl idle fits, htx, htx',
      by simp [width, width'], rfl, rfl, fun k => getElem?_head_of_ne_five s.seq addr cmd cmd' len ending ending',
      frameAccepted_crc addr cmd len s, frameAccepted_crc addr cmd' len s,
      (congrArg State.seq same :), (congrArg State.phase same :), (congrArg State.rem same :),
      (congrArg State.responses same :)⟩
  · rw [exec_frmStart, exec_frmStart, startFrame_refused_command addr cmd cmd' refused]

end Sys2Proof.Machine

/-!
PROOFS. Errors, 60_exceptions.md. First the layer that the proofs share: a step that adds an error is the `raise` of
that error and nothing else, and an operation answers exactly the error that the order of checks reports. Each error's
own statement then only has to say when it is the one reported.
-/
namespace Sys2Proof.Machine

/-! ## A refusal changes nothing (60_exceptions.md R118) -/

/-- An instruction answered with an error has done nothing else: every other outcome is answered `ok`. -/
theorem execEffect_refused {i : Instr} {s t : State} {e : ErrorCode} (h : ExecEffect i s t)
    (refused : t.responses = s.responses ++ [.err e]) : t = s.raise e := by
  cases h with
  | answers r =>
    obtain rfl : r = .err e := by simpa using refused
    rfl
  | writesCrc c => simp at refused
  | emitsWhole addr cmd => simp [completeFrame_eq, openFrame_eq] at refused
  | opens addr cmd len => simp [openFrame_eq] at refused
  | takes b => simp [takeByte_eq] at refused
  | takesLast b => simp [completeFrame_eq, takeByte_eq] at refused

/-- A step that adds an error takes one input and raises the error, and that is all. -/
theorem step_refused {s t : State} {e : ErrorCode} (h : step s = .next t)
    (refused : t.responses = s.responses ++ [.err e]) :
    t = State.raise e { s with pending := s.pending.tail } := by
  rcases step_cases h with ⟨-, rfl⟩ | ⟨_, -, rfl⟩ | ⟨_, rest, _, hp, -, rfl⟩ | ⟨_, rest, i, hp, -, hx⟩
  · simp at refused
  · simp [resetEvent_eq] at refused
  · obtain rfl : .illegalOp = e := by simpa using refused
    rw [hp, List.tail]
  · rw [hp]
    exact execEffect_refused (execEffect_of_exec hx) refused

/-- Settles O19: a raised error changes nothing but the responses. -/
theorem refusalChangesNothing : Obligations.RefusalChangesNothing := by
  intro s t e h refused
  rw [step_refused h refused]
  exact ⟨rfl, rfl, rfl, rfl⟩

/-! ## The one error reported (60_exceptions.md R117) -/

/-- The error in a response, if it is one. -/
def Response.error : Response → Option ErrorCode
  | .ok | .okValue _ => none
  | .err e => some e

theorem Response.error_eq_some_iff {r : Response} {e : ErrorCode} : r.error = some e ↔ r = .err e := by
  cases r <;> simp [Response.error]

/-- From `s` to `t` one response was added, and `reported` is the error in it. -/
def AnswersWith (reported : Option ErrorCode) (s t : State) : Prop :=
  ∃ r, t.responses = s.responses ++ [r] ∧ r.error = reported

theorem AnswersWith.responses_iff {reported : Option ErrorCode} {s t : State} (h : AnswersWith reported s t)
    (e : ErrorCode) : t.responses = s.responses ++ [.err e] ↔ reported = some e := by
  obtain ⟨r, hr, rfl⟩ := h
  rw [hr, Response.error_eq_some_iff]
  simp

theorem answersWith_raise (e : ErrorCode) (s : State) : AnswersWith (some e) s (s.raise e) := ⟨.err e, rfl, rfl⟩

theorem startFrame_answersWith (addr cmd : Byte) (len : Word16) (s : State) :
    AnswersWith (reportedError s (.instr (.frmStart addr cmd len))) s (startFrame addr cmd len s) := by
  rcases startFrame_cases addr cmd len s with ⟨busy, e⟩ | ⟨idle, large, e⟩ | ⟨idle, fits, -, e⟩ | ⟨idle, fits, -, e⟩ <;>
    rw [e]
  · rw [reportedError, busy]
    exact answersWith_raise .busy s
  · rw [reportedError, idle, operandError, if_pos (BitVec.lt_def.mp large)]
    exact answersWith_raise .payloadTooLarge s
  · rw [reportedError, idle, operandError, if_neg (Nat.not_lt.mpr (BitVec.le_def.mp fits))]
    exact ⟨.ok, by simp [completeFrame_eq, openFrame_eq], rfl⟩
  · rw [reportedError, idle, operandError, if_neg (Nat.not_lt.mpr (BitVec.le_def.mp fits))]
    exact ⟨.ok, by simp [openFrame_eq], rfl⟩

theorem supplyByte_answersWith (b : Byte) (s : State) :
    AnswersWith (reportedError s (.instr (.frmData b))) s (supplyByte b s) := by
  rcases supplyByte_cases b s with ⟨idle, e⟩ | ⟨busy, -, e⟩ | ⟨busy, -, e⟩ <;> rw [e]
  · rw [reportedError, idle]
    exact answersWith_raise .notInFrame s
  · rw [reportedError, busy]
    exact ⟨.ok, by simp [completeFrame_eq, takeByte_eq], rfl⟩
  · rw [reportedError, busy]
    exact ⟨.ok, by simp [takeByte_eq], rfl⟩

/-- CRC.INIT and CRC.UPD are answered with `Busy` in PAYLOAD and with `ok` in IDLE. -/
theorem crcWriter_answersWith {i : Instr} (s : State) (writer : i = .crcInit ∨ ∃ b, i = .crcUpd b) :
    ∃ t, exec i s = .next t ∧ AnswersWith (reportedError s (.instr i)) s t := by
  cases hp : s.phase with
  | idle =>
    rcases writer with rfl | ⟨b, rfl⟩ <;> rw [reportedError, hp]
    · exact ⟨_, exec_crcInit_idle hp, .ok, rfl, rfl⟩
    · exact ⟨_, exec_crcUpd_idle b hp, .ok, rfl, rfl⟩
  | payload =>
    rcases writer with rfl | ⟨b, rfl⟩ <;> rw [reportedError, hp]
    · exact ⟨_, exec_crcInit_payload hp, answersWith_raise .busy s⟩
    · exact ⟨_, exec_crcUpd_payload b hp, answersWith_raise .busy s⟩

/-- Every operation answers with the error that the order of checks reports, or with none. -/
theorem exec_answersWith {i : Instr} {w : OpWord} (operation : encode i = .op w) (s : State) :
    ∃ t, exec i s = .next t ∧ AnswersWith (reportedError s (.instr i)) s t := by
  cases i <;> cases operation
  case crcInit => exact crcWriter_answersWith s (.inl rfl)
  case crcUpd b => exact crcWriter_answersWith s (.inr ⟨b, rfl⟩)
  case crcRd =>
    refine ⟨_, exec_crcRd s, _, rfl, ?_⟩
    cases hp : s.phase <;> rw [reportedError, hp] <;> rfl
  case frmStart addr cmd len => exact ⟨_, exec_frmStart addr cmd len s, startFrame_answersWith addr cmd len s⟩
  case frmData b => exact ⟨_, exec_frmData b s, supplyByte_answersWith b s⟩
  case statRd =>
    refine ⟨_, exec_statRd s, _, rfl, ?_⟩
    cases hp : s.phase <;> rw [reportedError, hp] <;> rfl

/-- Settles O24: a word that is no operation is refused by the decoder, and an operation by its own checks. -/
theorem errorPriority : Obligations.ErrorPriority := by
  intro s w rest hp
  rw [step_word hp]
  cases hd : decodeOp w with
  | illegal why => exact ⟨_, runWord_illegal (e := .op w) hd _, (answersWith_raise .illegalOp _).responses_iff⟩
  | instr i =>
    obtain ⟨t, ht, answers⟩ := exec_answersWith (encode_of_decodeOp hd) { s with pending := rest }
    exact ⟨t, (runWord_instr (e := .op w) hd _).trans ht, answers.responses_iff⟩

/-- The step of an operation word adds the error `e` exactly when `e` is the one reported, and then changes nothing. -/
theorem step_error_iff (e : ErrorCode) {s : State} {w : OpWord} {rest : List HostInput}
    (hp : s.pending = .word (.op w) :: rest) :
    ∃ t, step s = .next t ∧
      (t.responses = s.responses ++ [.err e] ↔ reportedError s (decodeOp w) = some e) ∧
      (t.responses = s.responses ++ [.err e] → t.registers = s.registers ∧ t.tx = s.tx) := by
  obtain ⟨t, ht, reports⟩ := errorPriority s w rest hp
  refine ⟨t, ht, reports e, fun refused => ?_⟩
  obtain ⟨registers, tx, -, -⟩ := refusalChangesNothing s t e ht refused
  exact ⟨registers, tx⟩

/-! ## When each error is the one reported (60_exceptions.md R110 to R114) -/

theorem phaseError_eq_busy_iff {p : Phase} {i : Instr} :
    phaseError p i = some .busy ↔
      p = .payload ∧ (i = .crcInit ∨ (∃ b, i = .crcUpd b) ∨ ∃ addr cmd len, i = .frmStart addr cmd len) := by
  cases p <;> cases i <;> simp [phaseError]

theorem phaseError_eq_notInFrame_iff {p : Phase} {i : Instr} :
    phaseError p i = some .notInFrame ↔ p = .idle ∧ ∃ b, i = .frmData b := by
  cases p <;> cases i <;> simp [phaseError]

theorem operandError_eq_some_iff {m : Word16} {i : Instr} {e : ErrorCode} :
    operandError m i = some e ↔
      e = .payloadTooLarge ∧ ∃ addr cmd len, i = .frmStart addr cmd len ∧ m.toNat < len.toNat := by
  cases i <;> simp [operandError, eq_comm, and_comm]

theorem reportedError_instr_eq_some_iff {s : State} {i : Instr} {e : ErrorCode} :
    reportedError s (.instr i) = some e ↔
      phaseError s.phase i = some e ∨ phaseError s.phase i = none ∧ operandError s.params.maxPayload i = some e :=
  Option.or_eq_some_iff

/-- The phase errors are `Busy` and `NotInFrame`. -/
theorem phaseError_ne {e : ErrorCode} (notBusy : e ≠ .busy) (inFrame : e ≠ .notInFrame) (p : Phase) (i : Instr) :
    phaseError p i ≠ some e := by
  unfold phaseError
  split <;> simp [notBusy.symm, inFrame.symm]

theorem phaseError_frmStart_eq_none_iff {p : Phase} {addr cmd : Byte} {len : Word16} :
    phaseError p (.frmStart addr cmd len) = none ↔ p = .idle := by
  cases p <;> simp [phaseError]

theorem reportedError_eq_payloadTooLarge_iff {s : State} {d : Decoded} :
    reportedError s d = some .payloadTooLarge ↔
      s.phase = .idle ∧ ∃ addr cmd len, d = .instr (.frmStart addr cmd len) ∧
        s.params.maxPayload.toNat < len.toNat := by
  cases d with
  | illegal why => simp [reportedError]
  | instr i =>
    have noPhaseError := phaseError_ne (e := .payloadTooLarge) nofun nofun s.phase i
    rw [reportedError_instr_eq_some_iff, or_iff_right noPhaseError, operandError_eq_some_iff]
    constructor
    · rintro ⟨noPhase, -, addr, cmd, len, rfl, large⟩
      exact ⟨phaseError_frmStart_eq_none_iff.mp noPhase, addr, cmd, len, rfl, large⟩
    · rintro ⟨idle, addr, cmd, len, start, large⟩
      cases start
      exact ⟨phaseError_frmStart_eq_none_iff.mpr idle, rfl, addr, cmd, len, rfl, large⟩

theorem reportedError_eq_busy_iff {s : State} {d : Decoded} :
    reportedError s d = some .busy ↔
      s.phase = .payload ∧ (d = .instr .crcInit ∨ (∃ b, d = .instr (.crcUpd b)) ∨
        ∃ addr cmd len, d = .instr (.frmStart addr cmd len)) := by
  cases d with
  | illegal why => simp [reportedError]
  | instr i => simp [reportedError_instr_eq_some_iff, phaseError_eq_busy_iff, operandError_eq_some_iff]

theorem reportedError_eq_notInFrame_iff {s : State} {d : Decoded} :
    reportedError s d = some .notInFrame ↔ s.phase = .idle ∧ ∃ b, d = .instr (.frmData b) := by
  cases d with
  | illegal why => simp [reportedError]
  | instr i => simp [reportedError_instr_eq_some_iff, phaseError_eq_notInFrame_iff, operandError_eq_some_iff]

theorem reportedError_eq_illegalOp_iff {s : State} {d : Decoded} :
    reportedError s d = some .illegalOp ↔ ∃ why, d = .illegal why := by
  cases d with
  | illegal why => simp [reportedError]
  | instr i => simp [reportedError_instr_eq_some_iff, phaseError_ne, operandError_eq_some_iff]

/-- Settles O20: it is the operand error, reported when the phase is no error. -/
theorem payloadTooLargeExactly : Obligations.PayloadTooLargeExactly := by
  intro s w rest hp
  rw [← reportedError_eq_payloadTooLarge_iff]
  exact step_error_iff .payloadTooLarge hp

/-- Settles O21: it is the phase error of PAYLOAD. -/
theorem busyExactly : Obligations.BusyExactly := by
  intro s w rest hp
  rw [← reportedError_eq_busy_iff]
  exact step_error_iff .busy hp

/-- Settles O22: it is the phase error of IDLE. -/
theorem notInFrameExactly : Obligations.NotInFrameExactly := by
  intro s w rest hp
  rw [← reportedError_eq_notInFrame_iff]
  exact step_error_iff .notInFrame hp

/-! ## The words of no row (60_exceptions.md R114, 30_encoding.md R46) -/

/-- The row of an operation is one of the six, and its word lies there (30_encoding.md R44). -/
theorem exists_opRow_covers_of_encode {i : Instr} {w : OpWord} (h : encode i = .op w) :
    ∃ r ∈ opRows, r.covers w = true := by
  cases i <;> cases h
  case crcInit => exact ⟨⟨0x0100000000, 0xFFFFFFFFFF⟩, by decide, Laws.TableRow.crcInit⟩
  case crcUpd b => exact ⟨⟨0x0200000000, 0xFFFFFFFF00⟩, by decide, Laws.TableRow.crcUpd b⟩
  case crcRd => exact ⟨⟨0x0300000000, 0xFFFFFFFFFF⟩, by decide, Laws.TableRow.crcRd⟩
  case frmStart addr cmd len => exact ⟨⟨0x1000000000, 0xFF00000000⟩, by decide, Laws.TableRow.frmStart addr cmd len⟩
  case frmData b => exact ⟨⟨0x1100000000, 0xFFFFFFFF00⟩, by decide, Laws.TableRow.frmData b⟩
  case statRd => exact ⟨⟨0x2000000000, 0xFFFFFFFFFF⟩, by decide, Laws.TableRow.statRd⟩

/-- A word in one of the six rows decodes to the operation of that row. -/
theorem decodeOp_of_opRow_covers {w : OpWord} :
    ∀ r ∈ opRows, r.covers w = true → ∃ i, decodeOp w = .instr i := by
  obtain ⟨crcInit, crcUpd, crcRd, frmStart, frmData, statRd⟩ := operationTableIsTheDecoder.1 w
  simp only [opRows, List.forall_mem_cons, MatchMask.covers, beq_iff_eq]
  exact ⟨fun h => ⟨_, crcInit.mp h⟩, fun h => ⟨_, crcUpd.mp h⟩, fun h => ⟨_, crcRd.mp h⟩, fun h => ⟨_, frmStart.mp h⟩,
    fun h => ⟨_, frmData.mp h⟩, fun h => ⟨_, statRd.mp h⟩, nofun⟩

/-- Exactly the words of no row are illegal. -/
theorem decodeOp_illegal_iff (w : OpWord) :
    (∃ why, decodeOp w = .illegal why) ↔ ∀ r ∈ opRows, r.covers w = false := by
  constructor
  · rintro ⟨why, illegal⟩ r row
    rw [Bool.eq_false_iff]
    intro covered
    obtain ⟨i, hd⟩ := decodeOp_of_opRow_covers r row covered
    cases illegal.symm.trans hd
  · intro uncovered
    cases hd : decodeOp w with
    | illegal why => exact ⟨why, rfl⟩
    | instr i =>
      obtain ⟨r, row, covered⟩ := exists_opRow_covers_of_encode (encode_of_decodeOp hd)
      exact absurd (uncovered r row) (by simp [covered])

/-- Settles O23: the words of no row are those that the decoder rejects, and it is the decoder's error. -/
theorem illegalOpExactly : Obligations.IllegalOpExactly := by
  refine ⟨decodeOp_illegal_iff, fun s w rest hp => ?_⟩
  rw [← decodeOp_illegal_iff, ← reportedError_eq_illegalOp_iff (s := s)]
  exact step_error_iff .illegalOp hp

/-! ## Runs of refused words (60_exceptions.md R119) -/

/-- A step answers at most once. -/
theorem step_answers {s t : State} (h : step s = .next t) :
    ∃ added, t.responses = s.responses ++ added ∧ added.length ≤ 1 := by
  rcases step_cases h with ⟨-, rfl⟩ | ⟨_, -, rfl⟩ | ⟨_, _, _, -, -, rfl⟩ | ⟨_, rest, i, -, -, hx⟩
  · exact ⟨[], by simp, by simp⟩
  · exact ⟨[], by simp [resetEvent_eq], by simp⟩
  · exact ⟨[.err .illegalOp], rfl, le_rfl⟩
  · obtain ⟨u, r, hu, hr, -, -⟩ := exec_answers i { s with pending := rest }
    cases hu.symm.trans hx
    exact ⟨[r], hr, le_rfl⟩

/-- A run answers at most once per step. -/
theorem run_answers {k : Nat} {s t : State} (h : Host.Core.run core k s = .next t) :
    ∃ added, t.responses = s.responses ++ added ∧ added.length ≤ k := by
  induction k generalizing s with
  | zero =>
    cases h
    exact ⟨[], by simp, le_rfl⟩
  | succ k ih =>
    obtain ⟨u, hsu, hut⟩ := step_of_run_succ h
    obtain ⟨first, hfirst, one⟩ := step_answers hsu
    obtain ⟨more, hmore, upTo⟩ := ih hut
    exact ⟨first ++ more, by rw [hmore, hfirst, List.append_assoc], by rw [List.length_append]; omega⟩

/-- In a run with as many errors as steps, and no other answer, the first step raised the first of them. -/
theorem first_step_refused {k : Nat} {s u t : State} {e : ErrorCode} {es : List ErrorCode} (hsu : step s = .next u)
    (hut : Host.Core.run core k u = .next t) (count : es.length = k)
    (refused : t.responses = s.responses ++ (e :: es).map .err) :
    u.responses = s.responses ++ [.err e] ∧ t.responses = u.responses ++ es.map .err := by
  obtain ⟨first, hfirst, one⟩ := step_answers hsu
  obtain ⟨more, hmore, upTo⟩ := run_answers hut
  have parts : first ++ more = [.err e] ++ es.map .err := by
    rw [hmore, hfirst, List.append_assoc] at refused
    exact List.append_cancel_left refused
  have width := congrArg List.length parts
  simp only [List.length_append, List.length_map, List.length_singleton] at width
  obtain ⟨rfl, rfl⟩ := List.append_inj parts (by rw [List.length_singleton]; omega)
  exact ⟨hfirst, hmore⟩

/-- A run of refused words gives the answers and takes the inputs, and that is all. -/
theorem run_refused {k : Nat} {s t : State} {es : List ErrorCode} (h : Host.Core.run core k s = .next t)
    (count : es.length = k) (refused : t.responses = s.responses ++ es.map .err) :
    t = { s with responses := s.responses ++ es.map .err, pending := s.pending.drop k } := by
  induction k generalizing s es with
  | zero =>
    cases h
    cases List.length_eq_zero_iff.mp count
    simp
  | succ k ih =>
    obtain ⟨e, es, rfl⟩ := List.exists_cons_of_length_eq_add_one count
    have count' : es.length = k := Nat.succ.inj count
    obtain ⟨u, hsu, hut⟩ := step_of_run_succ h
    obtain ⟨hu, ht⟩ := first_step_refused hsu hut count' refused
    rw [ih hut count' ht, step_refused hsu hu]
    simp [State.raise, State.respond]

/-- Settles O25: by induction on the run, each of its steps having raised one of the errors. -/
theorem refusedRunsLeaveNoTrace : Obligations.RefusedRunsLeaveNoTrace := by
  rintro k s t h ⟨es, count, refused⟩
  rw [run_refused h count refused]
  exact ⟨rfl, rfl, rfl, rfl⟩

/-! ## Several blocks in one system (60_exceptions.md R124) -/

/-- A step of a system either finds no block at its place, or puts that block's own next state there. -/
theorem stepAt_cases {k : Nat} {y z : System} (h : y.stepAt k = .next z) :
    (y.blocks[k]? = none ∧ z = y) ∨
    (∃ s t, y.blocks[k]? = some s ∧ step s = .next t ∧ z = { y with blocks := y.blocks.set k t }) := by
  cases hk : y.blocks[k]? with
  | none =>
    simp only [System.stepAt, hk] at h
    cases h
    exact .inl ⟨rfl, rfl⟩
  | some s =>
    cases hs : step s <;> simp only [System.stepAt, hk, hs] at h <;> cases h
    exact .inr ⟨s, _, rfl, hs, rfl⟩

/-- Settles O49: the step writes the place of the block that steps and no other. -/
theorem instancesShareNothing : Obligations.InstancesShareNothing := by
  intro k y z h
  rcases stepAt_cases h with ⟨hk, rfl⟩ | ⟨s, t, hk, hs, rfl⟩
  · exact ⟨rfl, fun _ _ => rfl, fun s hs => by cases hk.symm.trans hs⟩
  · have inside : k < y.blocks.length := (List.getElem?_eq_some_iff.mp hk).1
    refine ⟨List.length_set, fun j other => List.getElem?_set_ne other.symm, fun s' hs' => ?_⟩
    cases hk.symm.trans hs'
    exact ⟨t, hs, List.getElem?_set_self inside⟩

end Sys2Proof.Machine

/-!
PROOFS. Reset and hazards, 70_reset_and_hazards.md. First the layer that the proofs share: a frame in progress together
with its missing bytes is a well-formed frame. So a stream of frames stays one when the block completes a frame behind
it, and the FRM.DATA that are missing complete the frame in progress.
-/
namespace Sys2Proof.Machine

/-! ## The frame in progress, completed (41_frame.md R80) -/

/-- A payload of the length that a LENGTH field declares has that LENGTH field. -/
theorem payloadLength_of_toNat {p : List Byte} {len : Word16} (h : p.length = len.toNat) : payloadLength p = len := by
  rw [payloadLength, h, BitVec.ofNat_toNat, BitVec.setWidth_eq]

/-- The missing bytes, the CRC field and the terminator make the frame in progress a well-formed frame. -/
theorem OpenFrame.completed {before q : List Byte} {s : State} (h : OpenFrame before s)
    (missing : q.length = s.rem.toNat) (o : CrcOrder) :
    ∃ f, wellFormedFrame o f = true ∧
      s.tx ++ (q ++ (crcBytes o (crcFrom s.crc q) ++ [Config.terminator])) = before ++ f := by
  obtain ⟨addr, cmd, len, p, htx, hlen, hcrc⟩ := h
  have total : (p ++ q).length = len.toNat := by
    rw [List.length_append]
    omega
  have short : (p ++ q).length ≤ 65535 := by omega
  refine ⟨frameBytes o s.seq addr cmd (p ++ q), wellFormedFrame_frameBytes o s.seq addr cmd short, ?_⟩
  rw [htx, hcrc, crcFrom_crc16, frameBytes, body, payloadLength_of_toNat total]
  simp only [List.append_assoc]

/-- `complete_frame` ends a frame in progress that misses no byte. -/
theorem completeFrame_tx_of_openFrame {before : List Byte} {s : State} (h : OpenFrame before s) (full : s.rem = 0) :
    ∃ f, wellFormedFrame s.params.crcOrder f = true ∧ (completeFrame s).tx = before ++ f := by
  rw [completeFrame_eq]
  exact h.completed (q := []) (by rw [full]; rfl) s.params.crcOrder

/-! ## Streams of frames (70_reset_and_hazards.md R139) -/

theorem WholeFrames.append {o : CrcOrder} {bytes f : List Byte} (h : WholeFrames o bytes)
    (whole : wellFormedFrame o f = true) : WholeFrames o (bytes ++ f) := by
  obtain ⟨fs, hfs, rfl⟩ := h
  refine ⟨fs ++ [f], fun g hg => ?_, by simp⟩
  rcases List.mem_append.mp hg with old | new
  · exact hfs g old
  · rwa [List.mem_singleton.mp new]

theorem streamInv_of_idle {s : State} (hp : s.phase = .idle) (hr : s.rem = 0)
    (whole : WholeFrames s.params.crcOrder s.tx) : StreamInv s :=
  ⟨phaseRemInv_of_idle hp hr, fun _ => whole, fun busy => by simp [hp] at busy⟩

/-- Completing the frame in progress behind a stream of frames makes the stream one frame longer. -/
theorem streamInv_completeFrame {before : List Byte} {s : State} (h : OpenFrame before s) (full : s.rem = 0)
    (whole : WholeFrames s.params.crcOrder before) (r : Response) : StreamInv ((completeFrame s).respond r) := by
  obtain ⟨f, hf, htx⟩ := completeFrame_tx_of_openFrame h full
  have grown : WholeFrames s.params.crcOrder (completeFrame s).tx := htx ▸ whole.append hf
  exact streamInv_of_idle rfl rfl grown

theorem execEffect_keeps_streamInv {i : Instr} {s t : State} (hs : StreamInv s) (h : ExecEffect i s t) :
    StreamInv t := by
  have hinv : PhaseRemInv t := execEffect_keeps_phaseRemInv i s t hs.1 h
  obtain ⟨hinv₀, hidle, hbusy⟩ := hs
  cases h with
  | answers r => exact ⟨hinv, hidle, hbusy⟩
  | writesCrc c idle => exact ⟨hinv, hidle, fun busy => absurd (idle.symm.trans busy) (by decide)⟩
  | emitsWhole addr cmd idle =>
    have opened := openFrame_opens addr cmd 0 s
    rw [openFrame_eq] at opened ⊢
    exact streamInv_completeFrame opened rfl (hidle idle) .ok
  | opens addr cmd len idle =>
    have opened := openFrame_opens addr cmd len s
    rw [openFrame_eq] at opened hinv ⊢
    exact ⟨hinv, nofun, fun _ => ⟨s.tx, hidle idle, opened⟩⟩
  | takes b busy =>
    obtain ⟨before, whole, hopen⟩ := hbusy busy
    have opened := takeByte_keeps_openFrame b (hinv₀.2 busy).1 hopen
    rw [takeByte_eq] at opened hinv ⊢
    exact ⟨hinv, fun idle => absurd (busy.symm.trans idle) (by decide), fun _ => ⟨before, whole, opened⟩⟩
  | takesLast b busy last =>
    obtain ⟨before, whole, hopen⟩ := hbusy busy
    have opened := takeByte_keeps_openFrame b (hinv₀.2 busy).1 hopen
    rw [takeByte_eq] at opened ⊢
    exact streamInv_completeFrame opened (by simp [last]) whole .ok

/-- Settles O38: a frame is completed only behind the frames before it and with no byte missing, a reset event in IDLE
keeps `TX` as it is, and of the other outcomes only the payload byte and the head of a frame emit. -/
theorem stepKeepsStreamOfFrames : Obligations.StepKeepsStreamOfFrames := by
  intro s t hs outside h
  rcases step_cases h with ⟨-, rfl⟩ | ⟨rest, hp, rfl⟩ | ⟨_, rest, _, -, -, rfl⟩ | ⟨_, rest, i, -, -, hx⟩
  · exact hs
  · have idle : s.phase = .idle := by
      cases hphase : s.phase with
      | idle => rfl
      | payload => exact absurd ⟨hphase, by rw [hp]; rfl⟩ outside
    exact streamInv_of_idle rfl rfl (hs.2.1 idle)
  · exact hs
  · exact execEffect_keeps_streamInv (s := { s with pending := rest }) hs (execEffect_of_exec hx)

/-! ## Runs without resets (70_reset_and_hazards.md R139) -/

/-- A step takes the first input, when one is waiting. -/
theorem step_pending {s t : State} (h : step s = .next t) : t.pending = s.pending.tail := by
  cases hp : s.pending with
  | nil =>
    cases (step_nothing_waiting hp).symm.trans h
    exact hp
  | cons x rest => exact (step_withPending hp h []).1

/-- No reset event is waiting, and `TX` is a stream of frames: what every step of a run without resets keeps. -/
def ResetFreeStream (s : State) : Prop := .reset ∉ s.pending ∧ StreamInv s

theorem step_keeps_resetFreeStream (s t : State) (hs : ResetFreeStream s) (h : step s = .next t) :
    ResetFreeStream t := by
  obtain ⟨noReset, hstream⟩ := hs
  refine ⟨fun waiting => noReset ?_, stepKeepsStreamOfFrames s t hstream (fun inFrame => noReset ?_) h⟩
  · rw [step_pending h] at waiting
    exact List.mem_of_mem_tail waiting
  · exact List.mem_of_head? inFrame.2

/-- Settles O41: a block just built has the empty stream, every step of a run without resets keeps it a stream of
frames, and in IDLE no frame is in progress behind it. -/
theorem cleanRunsEmitWholeFrames : Obligations.CleanRunsEmitWholeFrames := by
  intro p inputs t noReset h clean
  have hbuilt : ResetFreeStream { State.built p with pending := inputs } := ⟨noReset, streamInv_built p⟩
  obtain ⟨-, -, hidle, -⟩ : ResetFreeStream t := run_keeps step_keeps_resetFreeStream hbuilt h
  have hparams : t.params = p :=
    run_keeps (P := fun u => u.params = p) (fun _ _ hp hs => (step_params hs).trans hp) rfl h
  exact hparams ▸ hidle clean

/-! ## The missing bytes (70_reset_and_hazards.md R135) -/

/-- Settles O54: the FRM.DATA are all accepted, and the payload so far with their bytes is the declared payload. -/
theorem missingBytesCompleteTheFrame : Obligations.MissingBytesCompleteTheFrame := by
  intro s before q hinv busy hopen missing
  have nonempty : q ≠ [] := by
    rintro rfl
    have low := (hinv.2 busy).1
    rw [← missing] at low
    exact absurd low (by decide)
  obtain ⟨f, hf, htx⟩ := hopen.completed missing s.params.crcOrder
  exact ⟨payloadSupplied q s, f, runInstrs_frmData busy nonempty missing.symm, rfl, rfl, rfl, rfl, htx, hf,
    _, List.append_assoc _ _ _⟩

/-! ## The reset event (70_reset_and_hazards.md R130, R131) -/

/-- Settles O29: the step is the reset event, and a block just built holds the values that it writes. -/
theorem resetEventResult : Obligations.ResetEventResult := by
  refine ⟨fun s rest hp => ?_, fun p => ⟨rfl, ?_⟩⟩
  · rw [step_reset hp, resetEvent_eq]
    rfl
  · rw [resetEvent_eq]
    rfl

/-- A word of FRM.START that is accepted opens its frame. -/
theorem step_frmStart_accepted {addr cmd : Byte} {len : Word16} {s : State} {rest : List HostInput}
    (hp : s.pending = .word (encode (.frmStart addr cmd len)) :: rest) (idle : s.phase = .idle)
    (fits : len.toNat ≤ s.params.maxPayload.toNat) :
    step s = .next (frameAccepted addr cmd len { s with pending := rest }) := by
  rw [step_word hp, runWord_instr (decodeOfEncode _ rfl)]
  exact exec_request_accepted rfl idle fits

/-- Settles O30: the reset event leaves `TX` as it is and the block in IDLE, where the FRM.START is accepted. -/
theorem resetAbandonsTheFrame : Obligations.ResetAbandonsTheFrame := by
  intro s addr cmd len rest _ nonzero fits hp
  refine ⟨_, Eq.trans (run_succ (step_reset hp)) (run_succ (step_frmStart_accepted rfl rfl fits)), ?_⟩
  rw [resetEvent_eq, frameAccepted, if_neg nonzero]
  exact ⟨rfl, rfl, rfl, rfl⟩

/-! ## The previous checksum (70_reset_and_hazards.md R134) -/

/-- What an accepted FRM.START leaves does not depend on the `CRC` it found. -/
theorem frameAccepted_setCrc (addr cmd : Byte) (len c : Word16) (s : State) :
    frameAccepted addr cmd len { s with crc := c } = frameAccepted addr cmd len s := by
  unfold frameAccepted
  split
  · rfl
  · rfl

/-- Settles O35: FRM.START is accepted in both blocks, and what it leaves does not depend on `CRC`. -/
theorem acceptedFrmStartForgetsCrc : Obligations.AcceptedFrmStartForgetsCrc := by
  intro addr cmd len c s idle fits
  rw [exec_request_accepted (s := { s with crc := c }) rfl idle fits, exec_request_accepted rfl idle fits,
    frameAccepted_setCrc]

end Sys2Proof.Machine

/-!
PROOFS. Totality, 93_implementation_defined.md section 1, and the words of 95_test_vectors.md. Both follow from the layers
above: the equations of a step per kind of input, with an answer to every word, and decoding as the inverse of encoding.
-/
namespace Sys2Proof.Machine

/-! ## The block is total (93_implementation_defined.md section 1) -/

/-- Settles O27: with nothing waiting a step idles, a reset event has its effect, and every word is answered. -/
theorem stepNeverStops : Obligations.StepNeverStops := by
  intro s
  cases hp : s.pending with
  | nil => exact ⟨s, step_nothing_waiting hp⟩
  | cons x rest =>
    cases x with
    | reset => exact ⟨_, step_reset hp⟩
    | word e =>
      obtain ⟨t, -, ht, -⟩ := everyWordIsAnsweredOnce s e rest hp
      exact ⟨t, ht⟩

/-! ## The words of the tables (95_test_vectors.md sections 2.3, 2.6 and 2.7) -/

/-- A word is decoded by naming the well-formed instruction that encodes as it. -/
theorem decode_of_encode_eq {e : Encoded} {i : Instr} (wf : i.wf = true) (he : encode i = e) : decode e = .instr i :=
  he ▸ decodeOfEncode i wf

/-- Settles O46: each word is the encoding of its instruction, and the COMMAND value 0xFF of the last has no row of its
own. -/
theorem wordsOfTheSpecDecode : Obligations.WordsOfTheSpecDecode := by
  refine ⟨?_, ?_, ?_, ?_, ?_, ?_, ?_, ?_, ?_, ?_⟩
  all_goals exact decode_of_encode_eq rfl (by decide)

end Sys2Proof.Machine
